-- ==== Sys2Proof/Word.lean ====
section
/-! DEFINITION. The two value types of the core (00_scope.md R3). -/

namespace Sys2Proof

/-- A Byte: an 8-bit unsigned integer, 0..255 (R3). -/
abbrev Byte := BitVec 8

/-- A Word: a 16-bit unsigned integer, 0..65535 (R3). -/
abbrev Word := BitVec 16

end Sys2Proof
end

