-- ==== Sys2Proof/Syntax.lean ====
section
/-! DEFINITION. The instructions (30_encoding.md R61): one constructor per row of spec/opcode_table.json, the formats
of R55, and the instruction tags that IR holds (R17). -/

namespace Sys2Proof

/-- An instruction with its operands. An absolute operand is the effective address (R59), an immediate or relative one
the byte `operand[0]` (R57, R58). -/
inductive Instr where
  /-- `A9 ii` (R79). -/
  | ldaImm (imm : Byte)
  /-- `AD ll hh` (R80). -/
  | ldaAbs (ea : Word)
  /-- `A2 ii` (R81). -/
  | ldxImm (imm : Byte)
  /-- `AE ll hh` (R82). -/
  | ldxAbs (ea : Word)
  /-- `A0 ii` (R83). -/
  | ldyImm (imm : Byte)
  /-- `AC ll hh` (R84). -/
  | ldyAbs (ea : Word)
  /-- `8D ll hh` (R85). -/
  | staAbs (ea : Word)
  /-- `8A` (R86). -/
  | txa
  /-- `98` (R87). -/
  | tya
  /-- `AA` (R88). -/
  | tax
  /-- `A8` (R89). -/
  | tay
  /-- `6D ll hh` (R90). -/
  | adcAbs (ea : Word)
  /-- `EC ll hh` (R91). -/
  | cpxAbs (ea : Word)
  /-- `EE ll hh` (R92). -/
  | incAbs (ea : Word)
  /-- `D0 rr` (R94). -/
  | bne (rel : Byte)
  /-- `EA` (R95). -/
  | nop
  /-- `00` (R96). -/
  | brk
  /-- `FF`, or `FF ll hh` where X = 3 at Decode (R60, R97). -/
  | sys (start : Option Word)
  deriving DecidableEq, Repr

/-- The five formats of R55. -/
inductive Format where
  | imp
  | imm
  | rel
  | abs
  | sys
  deriving DecidableEq, Repr

/-- The tag that IR holds (R17): `none` is the reset value NONE, then the tags of R61 in the order of its table. -/
inductive IrTag where
  | none
  | ldaImm
  | ldaAbs
  | staAbs
  | txa
  | tya
  | adcAbs
  | ldxImm
  | ldxAbs
  | tax
  | ldyImm
  | ldyAbs
  | tay
  | nop
  | brk
  | cpxAbs
  | bneRel
  | incAbs
  | sys
  deriving DecidableEq, Repr

end Sys2Proof
end

