-- ==== Sys2Proof/Machine/State.lean ====
section
/-! DEFINITION. The state of the core (10_state.md), the reasons a step can stop, and the state after reset. -/

namespace Sys2Proof.Machine

/-- The pipeline stages, the values of the spec's register `step` (R19). -/
inductive Stage where
  | fetch
  | decode
  | execute
  | writeback
  | interruptCheck
  deriving DecidableEq, Repr

/-- The six observable phases: the five stages and the operand-fetch stall (R19, 90_conflicts.md C1). -/
inductive Phase where
  | fetch
  | decode
  | operandFetch
  | execute
  | writeback
  | interruptCheck
  deriving DecidableEq, Repr

/-- The device tag of an interrupt record: the core compares it with the keyboard's only (R111). -/
inductive Device where
  | keyboard
  | other
  deriving DecidableEq, Repr

/-- An interrupt record (R111). -/
structure Interrupt where
  irqNumber : Byte
  priority : Int
  device : Device
  data : Byte
  deriving DecidableEq, Repr

/-- The kinds of internal fault, the error taxonomy of R104. They are logged and the machine goes on (R105). -/
inductive FaultKind where
  | unknownOpcode
  | memoryOutOfRange
  | invalidSyscall
  | loadProtocolViolation
  deriving DecidableEq, Repr

/-- One entry of the fault log (R31, R105). Its numeric code follows from its kind (R104). -/
structure FaultReport where
  kind : FaultKind
  info : Nat
  pc : Word
  opcode : Byte
  stage : Phase
  deriving DecidableEq, Repr

/-- Everything the core holds (10_state.md), with the configuration of the run (R7) and, last, the Clock's tick counter
(R29) and the model's own two fields. -/
structure State where
  /-- `A` (R9). -/
  a : Byte
  /-- `X` (R10). -/
  x : Byte
  /-- `Y` (R11). -/
  y : Byte
  /-- `Z` (R12). -/
  z : Bool
  /-- `C` (R13). -/
  c : Bool
  /-- `PC` (R15). -/
  pc : Word
  /-- `opcode` (R16). -/
  opcode : Byte
  /-- `IR` (R17). -/
  ir : IrTag
  /-- `operand[0]` (R18). -/
  operand0 : Byte
  /-- `operand[1]` (R18). -/
  operand1 : Byte
  /-- `step` (R19). -/
  stage : Stage
  /-- `pulse_in_step` (R20). -/
  pulse : Nat
  /-- `fetch_count` (R21). -/
  fetchCount : Nat
  /-- `current_fetch` (R21). -/
  currentFetch : Nat
  /-- `write_address` (R22). -/
  writeAddress : Option Word
  /-- `write_value` (R22). -/
  writeValue : Option Byte
  /-- `str_ptr` (R23). -/
  strPtr : Word
  /-- `pending_interrupt` (R24). -/
  pendingInterrupt : Option Interrupt
  /-- `running` (R25). -/
  running : Bool
  /-- `USE_CARRY`, fixed for a run by Start (R7, R127). -/
  useCarry : Bool
  /-- `DEBUG`, fixed for a run by Start (R7, R127). -/
  debugLog : Bool
  /-- `cells`: the non-zero bytes of memory, in rising order of address (R26). -/
  cells : List Host.Cell
  /-- `MAR` (R26). -/
  mar : Word
  /-- `MDR` (R26). -/
  mdr : Byte
  /-- `read_pending` (R26). -/
  readPending : Bool
  /-- `write_pending` (R26). -/
  writePending : Bool
  /-- `program_queue` (R27). -/
  programQueue : List Byte
  /-- `load_address` (R27). -/
  loadAddress : Word
  /-- `is_loading` (R27). -/
  isLoading : Bool
  /-- `waiting` (R28). -/
  waiting : List Interrupt
  /-- `out` (R30). -/
  out : List Byte
  /-- `faults` (R31). -/
  faults : List FaultReport
  /-- The Clock's tick counter (R29, R65; log entry 4). -/
  tickCount : Nat
  /-- The model's own: a read completed in the last Memory phase (R109, D28; log entry 3). -/
  readCompleted : Bool
  /-- The model's own: the input `arrivals(n)` of R66, the head being the next tick's (log entry 2). -/
  arrivals : List (List Interrupt)
  deriving DecidableEq, Repr

/-- Why a step stops. All three are met only in states that no run reaches (the invariant of Safety.lean rules them
out), and all three are safe: the model stops where the specification gives no next state. -/
inductive Fault where
  /-- Raised by every use of `Mdr()` when no read completed in the previous tick: R109 and decision D28 tell a model to
  treat that state as faulted and never final. Safe. -/
  | loadProtocolViolation
  /-- Raised by a meaning in an Execute sub-pulse that its micro-op's table does not list (R20, R74). Safe. -/
  | subPulseOutOfRange
  /-- Raised by the Execute stage when IR holds NONE, which selects no micro-op (R17, R74). Safe. -/
  | noInstruction
  deriving DecidableEq, Repr

/-- What the model refuses. None is raised by an instruction. -/
inductive Refusal where
  /-- Raised by an arm of `exec` for an instruction without a meaning; there is none in this model. Safe. -/
  | notModelled (mnemonic : String)
  /-- Raised by Start for a program of more than 65 536 bytes: R130 says the launch is refused. Safe. -/
  | programTooLong
  /-- Raised by Start while a run is in progress: R131 gives it no move. Safe. -/
  | startWhileRunning
  deriving DecidableEq, Repr

/-- The core after reset and before any Start (10_state.md section 8; `useCarry`, `debugLog`, `tickCount`,
`readCompleted` and `arrivals` as log entries 2 to 5 say). -/
def State.reset : State where
  a := 0x00#8
  x := 0x00#8
  y := 0x00#8
  z := false
  c := false
  pc := 0x0000#16
  opcode := 0x00#8
  ir := .none
  operand0 := 0x00#8
  operand1 := 0x00#8
  stage := .fetch
  pulse := 0
  fetchCount := 0
  currentFetch := 0
  writeAddress := none
  writeValue := none
  strPtr := 0x0000#16
  pendingInterrupt := none
  running := false
  useCarry := false
  debugLog := false
  cells := []
  mar := 0x0000#16
  mdr := 0x00#8
  readPending := false
  writePending := false
  programQueue := []
  loadAddress := 0x0000#16
  isLoading := false
  waiting := []
  out := []
  faults := []
  tickCount := 0
  readCompleted := false
  arrivals := []

end Sys2Proof.Machine
end

