-- ==== Sys2Proof/Machine/Flags.lean ====
section
/-! DEFINITION. The ALU's results and flags (42_arith_compare.md R90 to R93), computed as unbounded integers and
narrowed at the end (R4). Z and C are the only flags (R14). -/

namespace Sys2Proof.Machine

/-- `cin`: 1 where USE_CARRY and C are both true (R90). -/
def carryIn (useCarry c : Bool) : Nat := if useCarry && c then 1 else 0

/-- The unbounded sum of ADC, 0..0x1FF (R90). -/
def adcSum (useCarry c : Bool) (a m : Byte) : Nat := a.toNat + m.toNat + carryIn useCarry c

/-- C after ADC: sum > 0xFF (R90). -/
def adcCarry (useCarry c : Bool) (a m : Byte) : Bool := decide (0xFF < adcSum useCarry c a m)

/-- A after ADC: sum mod 256 (R90). -/
def adcResult (useCarry c : Bool) (a m : Byte) : Byte := BitVec.ofNat 8 (adcSum useCarry c a m)

/-- The difference CPX compares with zero: (X − m) mod 256 (R91). -/
def cpxDiff (x m : Byte) : Byte := x - m

/-- Z after CPX: the difference is 0 (R91). -/
def cpxZ (x m : Byte) : Bool := cpxDiff x m == 0x00#8

/-- C after CPX: X ≥ m, unsigned (R91). -/
def cpxC (x m : Byte) : Bool := decide (m.toNat ≤ x.toNat)

/-- The value INC stores: (m + 1) mod 256 (R92). -/
def incResult (m : Byte) : Byte := m + 1

end Sys2Proof.Machine
end

