-- ==== Sys2Proof/Config.lean ====
section
/-! DEFINITION. The OPEN parameters of the specification (00_scope.md section 4): constants without a body, so that a
claim about the machine holds for every value of them or takes the value as a premise. -/

namespace Sys2Proof

/-- `SYS2_PAGE_CROSS` (92_eei_decisions.md D6): where a SYS X = 2 string goes after address 0x00FF. -/
inductive PageCross where
  /-- It continues at 0x0100. -/
  | linear
  /-- It continues at 0x0000. -/
  | zeroPageWrap
  deriving DecidableEq, Repr, Inhabited

/-- `STR_WRAP` (92_eei_decisions.md D7): what happens when a string pointer passes 0xFFFF. -/
inductive StrWrap where
  /-- It continues at 0x0000. -/
  | wrap
  /-- MemoryOutOfRange is raised. -/
  | fault
  deriving DecidableEq, Repr, Inhabited

/-- `SYS2_PAGE_CROSS`: OPEN, so nothing constrains it (R99; log entry 6). -/
opaque Config.sys2PageCross : PageCross

/-- `STR_WRAP`: OPEN, so nothing constrains it (R99; log entry 6). -/
opaque Config.strWrap : StrWrap

end Sys2Proof
end

