-- ==== Sys2Proof/WellFormed.lean ====
section
/-! DEFINITION. Which instructions the decoder can produce. Every operand type already bounds its field; what is left is
that SYS carries its two operand bytes exactly when X = 3 at Decode (30_encoding.md R60). -/

namespace Sys2Proof

/-- `i` is an instruction that Decode can produce while X holds `x` (R60, R97). -/
def Instr.wellFormed (x : Byte) : Instr → Bool
  | .sys start => start.isSome == (x == 0x03#8)
  | .ldaImm _ | .ldxImm _ | .ldyImm _ | .bne _ => true
  | .ldaAbs _ | .ldxAbs _ | .ldyAbs _ | .staAbs _ | .adcAbs _ | .cpxAbs _ | .incAbs _ => true
  | .txa | .tya | .tax | .tay | .nop | .brk => true

end Sys2Proof
end

