-- ==== Sys2Proof/Decode.lean ====
section
/-! DEFINITION. Decoding and encoding (30_encoding.md): the decode table of R61, the operand sizes of R60 and R61, the
operand assembly of R57 to R59, a decoder total on any bytes, and an encoder written from the same table. -/

namespace Sys2Proof

/-- `(hi << 8) | lo`: the little-endian 16-bit operand (R35, R59). -/
def littleEndian (lo hi : Byte) : Word := (hi.setWidth 16 <<< 8) ||| lo.setWidth 16

/-- The low byte of a Word, stored first (R35). -/
def lowByte (w : Word) : Byte := w.setWidth 8

/-- The high byte of a Word, stored second (R35). -/
def highByte (w : Word) : Byte := (w >>> 8).setWidth 8

/-- One row of the decode table: opcode, format and instruction tag (R61). -/
structure DecodeRow where
  opcode : Byte
  format : Format
  tag : IrTag
  deriving DecidableEq, Repr

/-- The decode table: exactly the eighteen entries of R61, in the order of its table. -/
def decodeTable : List DecodeRow :=
  [ ⟨0xA9#8, .imm, .ldaImm⟩, ⟨0xAD#8, .abs, .ldaAbs⟩, ⟨0x8D#8, .abs, .staAbs⟩, ⟨0x8A#8, .imp, .txa⟩,
    ⟨0x98#8, .imp, .tya⟩, ⟨0x6D#8, .abs, .adcAbs⟩, ⟨0xA2#8, .imm, .ldxImm⟩, ⟨0xAE#8, .abs, .ldxAbs⟩,
    ⟨0xAA#8, .imp, .tax⟩ ] ++
  [ ⟨0xA0#8, .imm, .ldyImm⟩, ⟨0xAC#8, .abs, .ldyAbs⟩, ⟨0xA8#8, .imp, .tay⟩, ⟨0xEA#8, .imp, .nop⟩,
    ⟨0x00#8, .imp, .brk⟩, ⟨0xEC#8, .abs, .cpxAbs⟩, ⟨0xD0#8, .rel, .bneRel⟩, ⟨0xEE#8, .abs, .incAbs⟩,
    ⟨0xFF#8, .sys, .sys⟩ ]

/-- The row of an opcode byte; `none` for the 238 undefined bytes (R62). -/
def lookupRow (op : Byte) : Option DecodeRow := decodeTable.find? (fun r => r.opcode == op)

/-- How many operand bytes a format takes while X holds `x` (R55, R60). -/
def operandBytes (f : Format) (x : Byte) : Nat :=
  match f with
  | .imp => 0
  | .imm => 1
  | .rel => 1
  | .abs => 2
  | .sys => if x = 0x03#8 then 2 else 0

/-- The numeric code of a tag (R61, decision D22): NONE is 0, then 1..18 in the order of the table. -/
def tagCode (t : IrTag) : BitVec 5 :=
  match t with
  | .none => 0
  | .ldaImm => 1
  | .ldaAbs => 2
  | .staAbs => 3
  | .txa => 4
  | .tya => 5
  | .adcAbs => 6
  | .ldxImm => 7
  | .ldxAbs => 8
  | .tax => 9
  | .ldyImm => 10
  | .ldyAbs => 11
  | .tay => 12
  | .nop => 13
  | .brk => 14
  | .cpxAbs => 15
  | .bneRel => 16
  | .incAbs => 17
  | .sys => 18

/-- The instruction that a tag and the operand latches stand for (R57 to R60). NONE stands for none. -/
def instrOfTag (t : IrTag) (x lo hi : Byte) : Option Instr :=
  match t with
  | .none => none
  | .ldaImm => some (.ldaImm lo)
  | .ldaAbs => some (.ldaAbs (littleEndian lo hi))
  | .staAbs => some (.staAbs (littleEndian lo hi))
  | .txa => some .txa
  | .tya => some .tya
  | .adcAbs => some (.adcAbs (littleEndian lo hi))
  | .ldxImm => some (.ldxImm lo)
  | .ldxAbs => some (.ldxAbs (littleEndian lo hi))
  | .tax => some .tax
  | .ldyImm => some (.ldyImm lo)
  | .ldyAbs => some (.ldyAbs (littleEndian lo hi))
  | .tay => some .tay
  | .nop => some .nop
  | .brk => some .brk
  | .cpxAbs => some (.cpxAbs (littleEndian lo hi))
  | .bneRel => some (.bne lo)
  | .incAbs => some (.incAbs (littleEndian lo hi))
  | .sys => some (.sys (if x = 0x03#8 then some (littleEndian lo hi) else none))

/-- Why a list of bytes holds no instruction. -/
inductive DecodeError where
  /-- The bytes end inside the instruction. -/
  | truncated
  /-- The first byte is not in the decode table: `UnknownOpcode(opcode)` (R62). -/
  | unknownOpcode (opcode : Byte)
  deriving DecidableEq, Repr

/-- The instruction at the front of `bytes` while X holds `x`, and the bytes after it (R55, R60). -/
def decode (x : Byte) (bytes : List Byte) : Except DecodeError (Instr × List Byte) :=
  match bytes with
  | [] => .error .truncated
  | op :: rest =>
    match lookupRow op with
    | none => .error (.unknownOpcode op)
    | some row =>
      match operandBytes row.format x, rest with
      | 0, rest => answer op row.tag 0 0 rest
      | 1, lo :: rest => answer op row.tag lo 0 rest
      | _, lo :: hi :: rest => answer op row.tag lo hi rest
      | _, _ => .error .truncated
where
  /-- The assembled instruction beside the rest of the bytes. -/
  answer (op : Byte) (t : IrTag) (lo hi : Byte) (rest : List Byte) : Except DecodeError (Instr × List Byte) :=
    match instrOfTag t x lo hi with
    | some i => .ok (i, rest)
    | none => .error (.unknownOpcode op)

/-- The tag of an instruction (R61). -/
def tagOf (i : Instr) : IrTag :=
  match i with
  | .ldaImm _ => .ldaImm
  | .ldaAbs _ => .ldaAbs
  | .ldxImm _ => .ldxImm
  | .ldxAbs _ => .ldxAbs
  | .ldyImm _ => .ldyImm
  | .ldyAbs _ => .ldyAbs
  | .staAbs _ => .staAbs
  | .txa => .txa
  | .tya => .tya
  | .tax => .tax
  | .tay => .tay
  | .adcAbs _ => .adcAbs
  | .cpxAbs _ => .cpxAbs
  | .incAbs _ => .incAbs
  | .bne _ => .bneRel
  | .nop => .nop
  | .brk => .brk
  | .sys _ => .sys

/-- The opcode byte of an instruction (R61). -/
def opcodeOf (i : Instr) : Byte :=
  match i with
  | .ldaImm _ => 0xA9#8
  | .ldaAbs _ => 0xAD#8
  | .ldxImm _ => 0xA2#8
  | .ldxAbs _ => 0xAE#8
  | .ldyImm _ => 0xA0#8
  | .ldyAbs _ => 0xAC#8
  | .staAbs _ => 0x8D#8
  | .txa => 0x8A#8
  | .tya => 0x98#8
  | .tax => 0xAA#8
  | .tay => 0xA8#8
  | .adcAbs _ => 0x6D#8
  | .cpxAbs _ => 0xEC#8
  | .incAbs _ => 0xEE#8
  | .bne _ => 0xD0#8
  | .nop => 0xEA#8
  | .brk => 0x00#8
  | .sys _ => 0xFF#8

/-- The operand bytes of an instruction, low byte first (R56, R59). -/
def operandsOf (i : Instr) : List Byte :=
  match i with
  | .ldaImm b | .ldxImm b | .ldyImm b | .bne b => [b]
  | .ldaAbs w | .ldxAbs w | .ldyAbs w | .staAbs w | .adcAbs w | .cpxAbs w | .incAbs w =>
    [lowByte w, highByte w]
  | .txa | .tya | .tax | .tay | .nop | .brk => []
  | .sys start =>
    match start with
    | none => []
    | some w => [lowByte w, highByte w]

/-- The bytes of an instruction: the opcode, then the operand bytes (R55). -/
def encode (i : Instr) : List Byte := opcodeOf i :: operandsOf i

/-- Byte `n` of an instruction whose bits are `w`, numbered as spec/opcode_table.json numbers them, every bit from
`nbits` on being 0. -/
def tableByte (nbits w n : Nat) : Byte := BitVec.ofNat 8 ((w % 2 ^ nbits) >>> (8 * n))

/-- The value of X under which the table's bits are read: SYS is longer than its opcode byte only where X = 3 (R60). -/
def tableX (nbits w : Nat) (x : Byte) : Byte :=
  if tableByte nbits w 0 = 0xFF#8 ∧ 8 < nbits then 0x03#8 else x

/-- The instruction the decoder reads from the table's bits, X being 0x00 as after reset, or 3 for a SYS given with
operand bytes (log entry 1). -/
def decodeTableWord (nbits w : Nat) : Option Instr :=
  match decode (tableX nbits w 0) [tableByte nbits w 0, tableByte nbits w 1, tableByte nbits w 2] with
  | .ok (i, _) => some i
  | .error _ => none

end Sys2Proof
end

