-- ==== Sys2Proof/Machine/Ops.lean ====
section
/-! DEFINITION. The named operations over memory and registers: reading and writing one cell, the Memory unit's
accessors and the MMU's transactions (20_memory.md), pipeline control (40_pipeline.md), output, `stop()`, and the fault
action, which is this core's one way of taking an exception (60_exceptions.md R105). There is no return from an
exception on this core (R120). -/

namespace Sys2Proof.Machine

/-- The answer of a step and what is done with its next state. -/
abbrev Answer := Host.Outcome State Fault Refusal

/-- Go on with a next state; a stop stays a stop. -/
def andThen (o : Answer) (f : State → Answer) : Answer :=
  match o with
  | .next s => f s
  | .fault r => .fault r
  | .refused r => .refused r

/-! ## Cells (R26, R33): the canonical list of the bytes that differ from 0x00 -/

/-- What a byte that nothing has written reads as: memory is "all initialized to 0" (R26, R34). -/
def Memory.unlisted : Byte := 0x00#8

/-- The byte at an address. -/
def Memory.read (m : List Host.Cell) (addr : Nat) : Byte :=
  match m with
  | [] => Memory.unlisted
  | cell :: rest => if cell.1 = addr then cell.2 else Memory.read rest addr

/-- The list with one byte put in front, unless it reads as an unlisted one does. -/
def Memory.cons (addr : Nat) (v : Byte) (m : List Host.Cell) : List Host.Cell :=
  if v = Memory.unlisted then m else (addr, v) :: m

/-- Memory with the byte at an address replaced, in canonical form. -/
def Memory.write (m : List Host.Cell) (addr : Nat) (v : Byte) : List Host.Cell :=
  match m with
  | [] => Memory.cons addr v []
  | cell :: rest =>
    if addr < cell.1 then Memory.cons addr v (cell :: rest)
    else if addr = cell.1 then Memory.cons addr v rest
    else cell :: Memory.write rest addr v

/-- The canonical form: addresses strictly rising and below 65 536, and no byte that an unlisted address reads as. -/
abbrev Memory.wf (m : List Host.Cell) : Prop :=
  m.Pairwise (fun p q => p.1 < q.1) ∧ ∀ p ∈ m, p.1 < 65536 ∧ p.2 ≠ Memory.unlisted

/-- `cells[a]`. -/
def State.cell (s : State) (a : Word) : Byte := Memory.read s.cells a.toNat

/-- `cells[a] <- v`. -/
def State.setCell (s : State) (a : Word) (v : Byte) : State := { s with cells := Memory.write s.cells a.toNat v }

/-! ## The Memory unit's accessors (R38) -/

/-- `set_mar(w)` (R38). -/
def State.setMar (s : State) (w : Word) : State := { s with mar := w }

/-- `set_mdr(b)` (R38). -/
def State.setMdr (s : State) (b : Byte) : State := { s with mdr := b }

/-- `queue_read()` (R38). -/
def State.queueRead (s : State) : State := { s with readPending := true }

/-- `queue_write()` (R38). -/
def State.queueWrite (s : State) : State := { s with writePending := true }

/-! ## The MMU's transactions (R40 to R43) -/

/-- `TriggerRead(a)`: MAR ← a, read_pending ← true (R40). -/
def State.triggerRead (s : State) (a : Word) : State := (s.setMar a).queueRead

/-- `trigger_write(v)`: MDR ← v, write_pending ← true (R41). No instruction calls it. -/
def State.triggerWrite (s : State) (v : Byte) : State := (s.setMdr v).queueWrite

/-- `WriteImmediate(a, v)`: MAR ← a, MDR ← v, write_pending ← true (R42). -/
def State.writeImmediate (s : State) (a : Word) (v : Byte) : State := ((s.setMar a).setMdr v).queueWrite

/-- `Mdr()` (R43), handed to the rest of the rule. With no read completed in the previous tick the state is faulted
(R109, D28). -/
def withMdr (s : State) (k : Byte → Answer) : Answer :=
  if s.readCompleted then k s.mdr else .fault .loadProtocolViolation

/-! ## Pipeline control (R19, R69, R74, R77) -/

/-- The phase that the stage register and the fetch counters give (R19). -/
def State.phase (s : State) : Phase :=
  if 0 < s.fetchCount ∧ s.currentFetch < s.fetchCount then .operandFetch
  else
    match s.stage with
    | .fetch => .fetch
    | .decode => .decode
    | .execute => .execute
    | .writeback => .writeback
    | .interruptCheck => .interruptCheck

/-- The sub-pulse count of an acting CPU phase: `pulse_in_step <- pulse_in_step + 1` (R68). -/
def State.nextPulse (s : State) : State := { s with pulse := s.pulse + 1 }

/-- `goto S`: step ← S, pulse_in_step ← 0 (R69). -/
def State.goto (s : State) (t : Stage) : State := { s with stage := t, pulse := 0 }

/-- `write_address <- none; write_value <- none` (R75). -/
def State.clearDeferred (s : State) : State := { s with writeAddress := none, writeValue := none }

/-- The stage after the result `done`: Writeback if both halves of the deferred write are set, else InterruptCheck (R74,
90_conflicts.md C5). -/
def State.stageAfterDone (s : State) : Stage :=
  if s.writeAddress.isSome ∧ s.writeValue.isSome then .writeback else .interruptCheck

/-- What follows the result `done` of a micro-op (R74). -/
def State.done (s : State) : State := s.goto s.stageAfterDone

/-- `stop()`: running ← false, waiting ← empty (R77, R115). -/
def State.stop (s : State) : State := { s with running := false, waiting := [] }

/-- `emit(b)` for each byte of `bs` in order: append to the output stream (R30). -/
def State.emit (s : State) (bs : List Byte) : State := { s with out := s.out ++ bs }

/-! ## Taking an exception: the fault action (R104, R105) -/

/-- The numeric code of a fault kind (R104, decision D10). -/
def faultCode (k : FaultKind) : Nat :=
  match k with
  | .unknownOpcode => 1
  | .memoryOutOfRange => 2
  | .invalidSyscall => 3
  | .loadProtocolViolation => 4

/-- The report of a fault raised in this state (R105). -/
def State.report (s : State) (k : FaultKind) (info : Nat) : FaultReport :=
  { kind := k, info := info, pc := s.pc, opcode := s.opcode, stage := s.phase }

/-- `raise F(info)`, that is `FaultAction(F, info)`: log the report, abandon the instruction, and go to Fetch with the
fetch counters and the deferred write cleared. Nothing else changes; there is no vector (R105, R110). -/
def State.raise (s : State) (k : FaultKind) (info : Nat) : State :=
  { s with
    faults := s.faults ++ [s.report k info]
    stage := .fetch
    pulse := 0
    fetchCount := 0
    currentFetch := 0
    writeAddress := none
    writeValue := none }

/-! ## The shapes of micro-op (R74) -/

/-- A micro-op of one sub-pulse: k = 1: act, then `done`. -/
def onePulse (s : State) (act : State → State) : Answer :=
  if s.pulse = 1 then .next (act s).done else .fault .subPulseOutOfRange

/-- A micro-op that reads `cells[ea]` in two sub-pulses: k = 1: TriggerRead(ea), `more`; k = 2: act on `Mdr()`, `done`
(R44, R80). -/
def readThen (s : State) (ea : Word) (act : Byte → State → State) : Answer :=
  if s.pulse = 1 then .next (s.triggerRead ea)
  else if s.pulse = 2 then withMdr s (fun m => .next (act m s).done)
  else .fault .subPulseOutOfRange

end Sys2Proof.Machine
end

