-- ==== Sys2Proof/Machine/Operands.lean ====
section
/-! DEFINITION. The operand forms (30_encoding.md R57 to R59), the string pointer's successor (R99) and the decimal
digits that SYS prints (R98). -/

namespace Sys2Proof.Machine

/-- `sext_16(b)`: b if b < 0x80, else b + 0xFF00 (00_scope.md section 6). -/
def sext16 (b : Byte) : Word := b.signExtend 16

/-- `zext_16(b)`: `(0x00 << 8) | b` (00_scope.md section 6). -/
def zext16 (b : Byte) : Word := b.setWidth 16

/-- The target of a taken branch: `(PC + sext_16(rel)) mod 65536`, PC being the address after the operand byte
(R58). -/
def branchTarget (pc : Word) (rel : Byte) : Word := pc + sext16 rel

/-- The effective address in the operand latches: `(operand[1] << 8) | operand[0]` (R59). -/
def State.ea (s : State) : Word := littleEndian s.operand0 s.operand1

/-- `Next(p)` of R99; `none` where it raises MemoryOutOfRange. -/
def nextStrPtr (cross : PageCross) (atTop : StrWrap) (x : Byte) (p : Word) : Option Word :=
  if x = 0x02#8 ∧ cross = .zeroPageWrap then some (BitVec.ofNat 16 ((p.toNat + 1) % 256))
  else if p = 0xFFFF#16 then
    match atTop with
    | .wrap => some 0x0000#16
    | .fault => none
  else some (p + 1)

/-- The byte of a decimal digit: 0x30 + d (R98, decision D16; log entry 9). -/
def digitByte (d : Nat) : Byte := BitVec.ofNat 8 (0x30 + d)

/-- The decimal representation of a Byte, most significant digit first, no leading zeros (R98). -/
def decimal (b : Byte) : List Byte :=
  let n := b.toNat
  if n < 10 then [digitByte n]
  else if n < 100 then [digitByte (n / 10), digitByte (n % 10)]
  else [digitByte (n / 100), digitByte (n / 10 % 10), digitByte (n % 10)]

end Sys2Proof.Machine
end

