-- ==== Sys2Proof/Machine/Arith.lean ====
section
/-! DEFINITION. Arithmetic, compare and increment (42_arith_compare.md R90 to R92). -/

namespace Sys2Proof.Machine

/-- ADC absolute: A and C from A + m + cin; Z is not touched (R90). -/
def execAdcAbs (ea : Word) (s : State) : Answer :=
  readThen s ea (fun m s =>
    { s with c := adcCarry s.useCarry s.c s.a m, a := adcResult s.useCarry s.c s.a m })

/-- CPX absolute: Z and C from X and m; nothing else (R91). -/
def execCpxAbs (ea : Word) (s : State) : Answer :=
  readThen s ea (fun m s => { s with z := cpxZ s.x m, c := cpxC s.x m })

/-- INC absolute: latch the deferred write of (m + 1) mod 256 to ea, which Writeback commits; no flag (R92). -/
def execIncAbs (ea : Word) (s : State) : Answer :=
  readThen s ea (fun m s => { s with writeAddress := some ea, writeValue := some (incResult m) })

end Sys2Proof.Machine
end

