-- ==== Sys2Proof/Machine/Control.lean ====
section
/-! DEFINITION. Branch, no-op and stop (43_control_system.md R94 to R96). -/

namespace Sys2Proof.Machine

/-- BNE: if not Z, PC ← (PC + sext_16(operand[0])) mod 65536 (R94). -/
def execBne (rel : Byte) (s : State) : Answer :=
  onePulse s (fun s => { s with pc := if s.z then s.pc else branchTarget s.pc rel })

/-- NOP: no action (R95). -/
def execNop (s : State) : Answer := onePulse s (fun s => s)

/-- BRK: `stop()`; there is no stack and no vector (R96). -/
def execBrk (s : State) : Answer := onePulse s State.stop

end Sys2Proof.Machine
end

