-- ==== Sys2Proof/Machine/Load.lean ====
section
/-! DEFINITION. The loads (41_load_store_transfer.md R79 to R84). No load writes a flag (R14). -/

namespace Sys2Proof.Machine

/-- LDA immediate: k = 1: A ← operand[0] (R79). -/
def execLdaImm (imm : Byte) (s : State) : Answer := onePulse s (fun s => { s with a := imm })

/-- LDA absolute: k = 1: TriggerRead(ea); k = 2: A ← Mdr() (R80). -/
def execLdaAbs (ea : Word) (s : State) : Answer := readThen s ea (fun m s => { s with a := m })

/-- LDX immediate: k = 1: X ← operand[0] (R81). -/
def execLdxImm (imm : Byte) (s : State) : Answer := onePulse s (fun s => { s with x := imm })

/-- LDX absolute: k = 1: TriggerRead(ea); k = 2: X ← Mdr() (R82). -/
def execLdxAbs (ea : Word) (s : State) : Answer := readThen s ea (fun m s => { s with x := m })

/-- LDY immediate: k = 1: Y ← operand[0] (R83). -/
def execLdyImm (imm : Byte) (s : State) : Answer := onePulse s (fun s => { s with y := imm })

/-- LDY absolute: k = 1: TriggerRead(ea); k = 2: Y ← Mdr() (R84). -/
def execLdyAbs (ea : Word) (s : State) : Answer := readThen s ea (fun m s => { s with y := m })

end Sys2Proof.Machine
end

