-- ==== Sys2Proof/Machine/Store.lean ====
section
/-! DEFINITION. The store (41_load_store_transfer.md R85). -/

namespace Sys2Proof.Machine

/-- STA absolute: k = 1: WriteImmediate(ea, A), `more`; k = 2: no action, `done`. The Memory phase of the tick of k = 1
commits the byte (R85, R39). -/
def execStaAbs (ea : Word) (s : State) : Answer :=
  if s.pulse = 1 then .next (s.writeImmediate ea s.a)
  else if s.pulse = 2 then .next s.done
  else .fault .subPulseOutOfRange

end Sys2Proof.Machine
end

