-- ==== Sys2Proof/Machine/System.lean ====
section
/-! DEFINITION. The system call (43_control_system.md R97 to R102), which dispatches on X at Execute. -/

namespace Sys2Proof.Machine

/-- SYS with X = 0x01: k = 1: emit the decimal representation of Y, `done` (R98). -/
def sysPrintInt (s : State) : Answer := onePulse s (fun s => s.emit (decimal s.y))

/-- SYS with any other X: k = 1: raise InvalidSyscall(X) (R102, R108). -/
def sysInvalid (s : State) : Answer :=
  if s.pulse = 1 then .next (s.raise .invalidSyscall s.x.toNat) else .fault .subPulseOutOfRange

/-- An even sub-pulse of the string stream, with `b` the byte read: stop at 0x00, else emit it and move the pointer on,
which may raise MemoryOutOfRange(0x10000) (R99, R107). -/
def strByte (cross : PageCross) (atTop : StrWrap) (b : Byte) (s : State) : State :=
  if b = 0x00#8 then s.done
  else
    match nextStrPtr cross atTop s.x s.strPtr with
    | some p => { s.emit [b] with strPtr := p }
    | none => (s.emit [b]).raise .memoryOutOfRange 0x10000

/-- The string stream of SYS with X = 0x02 and X = 0x03: k = 1 sets `str_ptr` and triggers its read; every later odd k
triggers the next read; every even k takes the byte (R99 to R101). -/
def sysString (cross : PageCross) (atTop : StrWrap) (start : Word) (s : State) : Answer :=
  if s.pulse = 0 then .fault .subPulseOutOfRange
  else if s.pulse = 1 then .next ({ s with strPtr := start }.triggerRead start)
  else if s.pulse % 2 = 1 then .next (s.triggerRead s.strPtr)
  else withMdr s (fun b => .next (strByte cross atTop b s))

/-- SYS (R97). For X = 3 the start address is the instruction's operand; an instruction given without one takes the
operand latches, as R101's `ea` does (log entry 7). -/
def execSys (start : Option Word) (s : State) : Answer :=
  if s.x = 0x01#8 then sysPrintInt s
  else if s.x = 0x02#8 then sysString Config.sys2PageCross Config.strWrap (zext16 s.y) s
  else if s.x = 0x03#8 then sysString Config.sys2PageCross Config.strWrap (start.getD s.ea) s
  else sysInvalid s

end Sys2Proof.Machine
end

