-- ==== Sys2Proof/Machine/Transfer.lean ====
section
/-! DEFINITION. The register transfers (41_load_store_transfer.md R86 to R89): one sub-pulse, no flag. -/

namespace Sys2Proof.Machine

/-- TXA: A ← X (R86). -/
def execTxa (s : State) : Answer := onePulse s (fun s => { s with a := s.x })

/-- TYA: A ← Y (R87). -/
def execTya (s : State) : Answer := onePulse s (fun s => { s with a := s.y })

/-- TAX: X ← A (R88). -/
def execTax (s : State) : Answer := onePulse s (fun s => { s with x := s.a })

/-- TAY: Y ← A (R89). -/
def execTay (s : State) : Answer := onePulse s (fun s => { s with y := s.a })

end Sys2Proof.Machine
end

