-- ==== Sys2Proof/Machine/Dispatch.lean ====
section
/-! DEFINITION. `exec`: one Execute sub-pulse of an instruction, k being `pulse_in_step` (40_pipeline.md R74). One arm per
constructor of Instr. -/

namespace Sys2Proof.Machine
open Sys2Proof

def exec (i : Instr) (s : State) : Host.Outcome State Fault Refusal :=
  match i with
  | .ldaImm imm => Sys2Proof.Machine.execLdaImm imm s
  | .ldaAbs ea => Sys2Proof.Machine.execLdaAbs ea s
  | .ldxImm imm => Sys2Proof.Machine.execLdxImm imm s
  | .ldxAbs ea => Sys2Proof.Machine.execLdxAbs ea s
  | .ldyImm imm => Sys2Proof.Machine.execLdyImm imm s
  | .ldyAbs ea => Sys2Proof.Machine.execLdyAbs ea s
  | .staAbs ea => Sys2Proof.Machine.execStaAbs ea s
  | .txa => Sys2Proof.Machine.execTxa s
  | .tya => Sys2Proof.Machine.execTya s
  | .tax => Sys2Proof.Machine.execTax s
  | .tay => Sys2Proof.Machine.execTay s
  | .adcAbs ea => Sys2Proof.Machine.execAdcAbs ea s
  | .cpxAbs ea => Sys2Proof.Machine.execCpxAbs ea s
  | .incAbs ea => Sys2Proof.Machine.execIncAbs ea s
  | .bne rel => Sys2Proof.Machine.execBne rel s
  | .nop => Sys2Proof.Machine.execNop s
  | .brk => Sys2Proof.Machine.execBrk s
  | .sys start => Sys2Proof.Machine.execSys start s

end Sys2Proof.Machine
end

