-- ==== Sys2Proof/Machine/Interrupts.lean ====
section
/-! DEFINITION. Interrupt records, arrivals, the priority arbiter and the service at InterruptCheck (60_exceptions.md
R111 to R117). -/

namespace Sys2Proof.Machine

/-- The record the keyboard publishes for a byte: irq 1, priority 1 (R112). -/
def keyboardRecord (d : Byte) : Interrupt :=
  { irqNumber := 0x01#8, priority := 1, device := .keyboard, data := d }

/-- `accept(interrupt)`: append to `waiting` (R113). -/
def State.accept (s : State) (i : Interrupt) : State := { s with waiting := s.waiting ++ [i] }

/-- The arrivals of this tick, in arrival order, appended before the IC phase (R66). -/
def State.acceptArrivals (s : State) : State :=
  { s with waiting := s.waiting ++ s.arrivals.headD [], arrivals := s.arrivals.tail }

/-- The record that stays ahead of `best`: strictly greater priority wins, so ties go to the first arrival (R114). -/
def bestOf (best : Interrupt) (l : List Interrupt) : Interrupt :=
  match l with
  | [] => best
  | i :: rest => if best.priority < i.priority then bestOf i rest else bestOf best rest

/-- The winner among the waiting records: the earliest of greatest priority (R114). -/
def winner (l : List Interrupt) : Option Interrupt :=
  match l with
  | [] => none
  | i :: rest => some (bestOf i rest)

/-- `IcTick()`: the winner, if any, replaces the pending record; `waiting` is emptied (R114, decision D11). -/
def State.icTick (s : State) : State :=
  { s with pendingInterrupt := (winner s.waiting).or s.pendingInterrupt, waiting := [] }

/-- A keyboard record whose byte is `q` (0x71) or `Q` (0x51) (R116, decision D27; log entry 9). -/
def isStopKey (i : Interrupt) : Bool :=
  i.device == .keyboard && (i.data == 0x71#8 || i.data == 0x51#8)

/-- `Service()`: stop on a pending `q` or `Q`, and clear the pending slot (R116). -/
def State.service (s : State) : State :=
  match s.pendingInterrupt with
  | some i => { (if isStopKey i then s.stop else s) with pendingInterrupt := none }
  | none => s

end Sys2Proof.Machine
end

