-- ==== Sys2Proof/Machine/MemoryUnit.lean ====
section
/-! DEFINITION. The Memory phase of a tick and the program-load queue drain controller (20_memory.md R39, R46 to
R49). -/

namespace Sys2Proof.Machine

/-- `AdvanceLoad()`: queue the next program byte for `load_address`, or end the load (R47). -/
def State.advanceLoad (s : State) : State :=
  match s.programQueue with
  | b :: rest =>
    { ({ s with programQueue := rest }).writeImmediate s.loadAddress b with loadAddress := s.loadAddress + 1 }
  | [] => { s with isLoading := false }

/-- The write half of MemoryTick: `cells[MAR] <- MDR`, then AdvanceLoad while loading (R39). -/
def State.commitWrite (s : State) : State :=
  if s.writePending then
    let t := { s.setCell s.mar s.mdr with writePending := false }
    if t.isLoading then t.advanceLoad else t
  else s

/-- The read half of MemoryTick: `MDR <- cells[MAR]` where a read is pending (R39). `readCompleted` says whether there
was one (log entry 3). -/
def State.serveRead (s : State) : State :=
  { s with mdr := if s.readPending then s.cell s.mar else s.mdr, readPending := false, readCompleted := s.readPending }

/-- `MemoryTick()`: the write before the read (R39). -/
def State.memoryTick (s : State) : State := s.commitWrite.serveRead

/-- Memory reset: every cell 0x00, MAR and MDR 0, both pending flags false (R49, decision D17). -/
def State.memoryReset (s : State) : State :=
  { s with cells := [], mar := 0x0000#16, mdr := 0x00#8, readPending := false, writePending := false, readCompleted := false }

/-- MMU reset: empty queue, `load_address` 0, not loading, and Memory reset (R49). -/
def State.mmuReset (s : State) : State :=
  { s.memoryReset with programQueue := [], loadAddress := 0x0000#16, isLoading := false }

/-- `set_program(bytes)`: reset the MMU, queue the bytes, and prime the first write (R46). -/
def State.setProgram (s : State) (bytes : List Byte) : State :=
  { s.mmuReset with programQueue := bytes, loadAddress := 0x0000#16, isLoading := true }.advanceLoad

end Sys2Proof.Machine
end

