-- ==== Sys2Proof/Machine/Pipeline.lean ====
section
/-! DEFINITION. The tick and the six-phase pipeline (40_pipeline.md R65 to R78). -/

namespace Sys2Proof.Machine

/-- The capture of an opcode byte: `opcode <- b; PC <- PC + 1` (R72). -/
def State.captureOpcode (s : State) (b : Byte) : State := { s with opcode := b, pc := s.pc + 1 }

/-- Fetch: k = 1: TriggerRead(PC); k = 2: opcode ← Mdr(), PC ← PC + 1, goto Decode (R72). -/
def fetchStage (s : State) : Answer :=
  if s.pulse = 1 then .next (s.triggerRead s.pc)
  else if s.pulse = 2 then withMdr s (fun m => .next ((s.captureOpcode m).goto .decode))
  else .next s

/-- `operand[current_fetch] <- b`. There are two operand bytes (R18). -/
def State.setOperand (s : State) (b : Byte) : State :=
  { s with
    operand0 := if s.currentFetch = 0 then b else s.operand0
    operand1 := if s.currentFetch = 1 then b else s.operand1 }

/-- The byte being captured is the last one of its instruction (R71). -/
def State.lastOperand (s : State) : Bool := s.currentFetch + 1 == s.fetchCount

/-- The capture of an operand byte: the byte, PC + 1, the counters, which are cleared after the last byte, and the pulse
back to 0 (R71, decision D4). -/
def State.captureOperand (s : State) (b : Byte) : State :=
  { s.setOperand b with
    pc := s.pc + 1
    currentFetch := if s.lastOperand then 0 else s.currentFetch + 1
    fetchCount := if s.lastOperand then 0 else s.fetchCount
    pulse := 0 }

/-- The operand-fetch stall: k = 1: TriggerRead(PC); k = 2: capture the byte (R71). -/
def stall (s : State) : Answer :=
  if s.pulse = 1 then .next (s.triggerRead s.pc)
  else if s.pulse = 2 then withMdr s (fun m => .next (s.captureOperand m))
  else .next s

/-- What Decode takes from a row of the table: the operand size, the counters and IR (R73). -/
def State.decoded (s : State) (row : DecodeRow) : State :=
  { s with fetchCount := operandBytes row.format s.x, currentFetch := 0, ir := row.tag }

/-- Decode: look the opcode up; raise UnknownOpcode, or set the operand size and IR and go to Execute (R73, R106). -/
def decodeStage (s : State) : Answer :=
  match lookupRow s.opcode with
  | none => .next (s.raise .unknownOpcode s.opcode.toNat)
  | some row => .next ((s.decoded row).goto .execute)

/-- Execute: the micro-op that IR selects, on the operand latches (R74). -/
def executeStage (s : State) : Answer :=
  match instrOfTag s.ir s.x s.operand0 s.operand1 with
  | some i => exec i s
  | none => .fault .noInstruction

/-- Writeback: commit the deferred write if both halves are set, clear both, goto InterruptCheck (R75). -/
def writebackStage (s : State) : Answer :=
  match s.writeAddress, s.writeValue with
  | some a, some v => .next ((s.clearDeferred.goto .interruptCheck).writeImmediate a v)
  | _, _ => .next (s.goto .interruptCheck)

/-- InterruptCheck: the interrupt service, then goto Fetch (R76). -/
def interruptCheckStage (s : State) : Answer := .next (s.service.goto .fetch)

/-- One sub-pulse of the current phase, `pulse_in_step` already counted up (R70). -/
def runPhase (s : State) : Answer :=
  match s.phase with
  | .operandFetch => stall s
  | .fetch => fetchStage s
  | .decode => decodeStage s
  | .execute => executeStage s
  | .writeback => writebackStage s
  | .interruptCheck => interruptCheckStage s

/-- The CPU phase: a no-op unless running and not loading; otherwise count the sub-pulse and run the phase (R67, R68,
R70). -/
def cpuTick (s : State) : Answer :=
  if s.running = false ∨ s.isLoading then .next s else runPhase s.nextPulse

/-- The Clock's own part of a tick (R65; log entry 4). -/
def State.clockTick (s : State) : State := { s with tickCount := s.tickCount + 1 }

/-- The state in which a tick's phases run: the Clock has counted and this tick's arrivals are waiting (R65, R66). -/
def State.tickStart (s : State) : State := s.clockTick.acceptArrivals

/-- The Memory phase and the IC phase, which follow every CPU phase (R65). -/
def State.laterPhases (s : State) : State := s.memoryTick.icTick

/-- `Tick()`: the Clock, this tick's arrivals, then the CPU, Memory and IC phases (R65, R66). -/
def tick (s : State) : Answer :=
  andThen (cpuTick s.tickStart) (fun t => .next t.laterPhases)

/-! ## Placing an instruction for the next step (log entry 1) -/

/-- `bytes` stored at consecutive addresses, each taken modulo 65536 (R55). -/
def State.placeBytes (s : State) (addr : Word) (bytes : List Byte) : State :=
  match bytes with
  | [] => s
  | b :: rest => (s.setCell addr b).placeBytes (addr + 1) rest

/-- The core running, with no load, no transaction and no instruction in progress, about to begin a Fetch (R78). -/
def State.atFetch (s : State) : State :=
  { s with
    running := true
    isLoading := false
    programQueue := []
    readPending := false
    writePending := false
    readCompleted := false
    stage := .fetch
    pulse := 0
    fetchCount := 0
    currentFetch := 0
    writeAddress := none
    writeValue := none }

/-- The latches after the Fetch of a byte: MAR its address, MDR the byte, PC one on (R71, R72). -/
def State.fetched (s : State) (b : Byte) : State := { s with mar := s.pc, mdr := b, pc := s.pc + 1 }

/-- What Fetch, Decode and the operand-fetch stall leave, given the three bytes at PC: the state whose next tick is
Execute sub-pulse 1, or Decode where the opcode is undefined (R71 to R73). -/
def State.frontEnd (s : State) (b0 b1 b2 : Byte) : State :=
  let t := { s.fetched b0 with opcode := b0 }
  match lookupRow b0 with
  | none => { t with stage := .decode }
  | some row =>
    let t := { t with ir := row.tag, stage := .execute }
    match operandBytes row.format s.x with
    | 0 => t
    | 1 => { t.fetched b1 with operand0 := b1 }
    | _ => { (t.fetched b1).fetched b2 with operand0 := b1, operand1 := b2 }

end Sys2Proof.Machine
end

