-- ==== Sys2Proof/Machine/Start.lean ====
section
/-! DEFINITION. The host's start sequence (70_reset_and_hazards.md R127 to R131) and the snapshot it reads at the end of
a run (R133). -/

namespace Sys2Proof.Machine

/-- "Every CPU register <- its reset value", and the pending slot, the waiting list, the output and the fault log
emptied (R127, 10_state.md section 8). -/
def State.cpuReset (s : State) : State :=
  { s with
    a := 0x00#8
    x := 0x00#8
    y := 0x00#8
    z := false
    c := false
    pc := 0x0000#16
    opcode := 0x00#8
    ir := .none
    operand0 := 0x00#8
    operand1 := 0x00#8
    stage := .fetch
    pulse := 0
    fetchCount := 0
    currentFetch := 0
    writeAddress := none
    writeValue := none
    strPtr := 0x0000#16
    pendingInterrupt := none
    waiting := []
    out := []
    faults := [] }

/-- The Clock counts the ticks of the new run from its first: nothing survives from the earlier run (R131; ticks are
numbered from the first after the start, 00_scope.md section 6; log entry 4). -/
def State.clockReset (s : State) : State := { s with tickCount := 0 }

/-- `Start(P, use_carry, debug)`: accepted only while stopped; refused for more than 65 536 bytes; an empty program
leaves the core stopped; otherwise the load is set up and the core runs (R127, R129 to R131). -/
def start (program : List Byte) (useCarry debugLog : Bool) (s : State) : Answer :=
  if s.running then .refused .startWhileRunning
  else if 65536 < program.length then .refused .programTooLong
  else
    let t := ({ s with useCarry := useCarry, debugLog := debugLog }).cpuReset.clockReset
    match program with
    | [] => .next t.mmuReset
    | _ :: _ => .next { t.setProgram program with running := true }

/-- What the host reads at the end of a run (R133). -/
structure Snapshot where
  a : Byte
  x : Byte
  y : Byte
  z : Bool
  c : Bool
  pc : Word
  out : List Byte
  faults : List FaultReport
  cells : List Host.Cell
  deriving DecidableEq, Repr

/-- The snapshot of a stopped core; a running core gives none (R133, R134). -/
def State.snapshot (s : State) : Option Snapshot :=
  if s.running then none
  else
    some { a := s.a, x := s.x, y := s.y, z := s.z, c := s.c, pc := s.pc, out := s.out, faults := s.faults,
           cells := s.cells }

end Sys2Proof.Machine
end

