-- ==== Sys2Proof/Machine/Step.lean ====
section
/-! DEFINITION. One step of the machine: one tick while running, nothing otherwise (R5, R134), and the placement of an
instruction so that the next step runs it (log entry 1). -/

namespace Sys2Proof.Machine

/-- `Step(state, arrivals) = if running then Tick(state, arrivals) else state` (R134). -/
def step (s : State) : Host.Outcome State Fault Refusal := if s.running then tick s else .next s

/-- `s` with the instruction whose bits are `w` stored at PC and taken through Fetch, Decode and the operand-fetch
stall, so that the next step is its Execute sub-pulse 1 (log entry 1). -/
def State.withFetchWord (s : State) (nbits w : Nat) : State :=
  let b0 := tableByte nbits w 0
  let b1 := tableByte nbits w 1
  let b2 := tableByte nbits w 2
  (({ s.atFetch with x := tableX nbits w s.x }).placeBytes s.pc [b0, b1, b2]).frontEnd b0 b1 b2

end Sys2Proof.Machine
end

