-- ==== Sys2Proof/Safety.lean ====
section
/-! DEFINITION. What claims about the machine are stated in: runs of several ticks, the instruction boundary, the
invariant that rules out unreachable states (10_state.md R32), a clean end of a run (R133), and the instruction-level
summary that the tick-level pipeline carries out. -/

namespace Sys2Proof.Machine

/-- `n` steps, stopping at the first fault or refusal. -/
def run (n : Nat) (s : State) : Answer :=
  match n with
  | 0 => .next s
  | n + 1 => andThen (step s) (run n)

/-- A run ended and ended cleanly: stopped, with no fault logged (R133, decision D33). -/
def State.cleanEnd (s : State) : Prop := s.running = false ∧ s.faults = []

/-- Running, with the next tick the first of a Fetch: no load, no instruction and no transaction in progress (R78). -/
structure State.boundary (s : State) : Prop where
  running : s.running = true
  notLoading : s.isLoading = false
  stage : s.stage = .fetch
  pulse : s.pulse = 0
  fetchCount : s.fetchCount = 0
  currentFetch : s.currentFetch = 0
  writeAddress : s.writeAddress = none
  writeValue : s.writeValue = none
  readPending : s.readPending = false
  writePending : s.writePending = false

/-- The byte before the tick's increment is a legal sub-pulse of Fetch or of the stall: at the second one, the read
triggered at the first has completed (R44, R71, R72). -/
def State.readTurn (s : State) : Prop := s.pulse = 0 ∨ (s.pulse = 1 ∧ s.readCompleted = true)

/-- The coming Execute sub-pulse is one that the micro-op's table lists, and where it takes `Mdr()` its read has
completed (R20, R44, R74). -/
def State.executeTurn (s : State) : Prop :=
  match s.ir with
  | .none => False
  | .ldaImm | .ldxImm | .ldyImm | .txa | .tya | .tax | .tay | .bneRel | .nop | .brk => s.pulse = 0
  | .ldaAbs | .ldxAbs | .ldyAbs | .adcAbs | .cpxAbs | .incAbs => s.readTurn
  | .staAbs => s.pulse ≤ 1
  | .sys =>
    if s.x = 0x02#8 ∨ s.x = 0x03#8 then s.pulse % 2 = 1 → s.readCompleted = true else s.pulse = 0

/-- The coming sub-pulse is a legal one of the current phase (R20). -/
def State.pulseTurn (s : State) : Prop :=
  match s.phase with
  | .fetch => s.readTurn
  | .operandFetch => s.ir ≠ .none ∧ s.readTurn
  | .execute => s.executeTurn
  | .decode | .writeback | .interruptCheck => s.pulse = 0

/-- The invariant of the machine between ticks: R32 with the further invariants it and R21, R22, R26, R27 name. -/
structure State.Inv (s : State) : Prop where
  /-- Memory is in its canonical form, so it has exactly 65 536 entries (R32). -/
  cells : Memory.wf s.cells
  /-- `read_pending` is false between ticks (R26). -/
  readPending : s.readPending = false
  /-- Between ticks `write_pending` is true exactly while a program-load write is queued (R26, R27). -/
  writePending : s.writePending = s.isLoading
  /-- The program queue is empty once the load has ended (R27). -/
  programQueue : s.isLoading = false → s.programQueue = []
  /-- The CPU is idle at the start of a Fetch while the program loads (R67). -/
  loading : s.isLoading = true → s.stage = .fetch ∧ s.pulse = 0
  /-- fetch_count ≥ current_fetch, and fetch_count is at most 2 (R21, R32). -/
  fetchBound : s.currentFetch ≤ s.fetchCount ∧ s.fetchCount ≤ 2
  /-- fetch_count > 0 exactly in the stall, which lies in Execute (R21, R32). -/
  stalling : 0 < s.fetchCount → s.currentFetch < s.fetchCount ∧ s.stage = .execute
  /-- The IC phase has emptied the waiting list (R114). -/
  waiting : s.waiting = []
  /-- The deferred write is set exactly before Writeback (R22, R74). -/
  deferred : s.writeAddress.isSome = (s.stage == .writeback) ∧ s.writeValue.isSome = (s.stage == .writeback)
  /-- The coming sub-pulse is a legal one (R20, R44). -/
  pulseTurn : s.pulseTurn

/-- The CPU phase of the next tick acts: the machine runs and no program is loading (R67). -/
def State.active (s : State) : Prop := s.running = true ∧ s.isLoading = false

/-- The micro-op of `i` reads `cells[ea]` in two sub-pulses and then does `act` on the byte (R44, R74): sub-pulse 1
triggers the read, sub-pulse 2 with the read completed acts on MDR and is done, and over the Memory phase between the
two the byte acted on is the one `cells[ea]` held at the trigger. -/
def ReadsOperand (i : Instr) (ea : Word) (act : Byte → State → State) : Prop :=
  ∀ s : State,
    (s.pulse = 1 → exec i s = .next (s.triggerRead ea)) ∧
      (s.pulse = 2 → s.readCompleted = true → exec i s = .next (act s.mdr s).done) ∧
        (s.pulse = 1 → s.writePending = false →
          exec i (s.triggerRead ea).memoryTick.nextPulse =
            .next (act (s.cell ea)
              { s with
                mar := ea, mdr := s.cell ea, readPending := false, readCompleted := true, pulse := 2 }).done)

/-! ## The instruction-level summary -/

/-- What a program computes with and the host reads at the end (R133). -/
structure Arch where
  a : Byte
  x : Byte
  y : Byte
  z : Bool
  c : Bool
  pc : Word
  cells : List Host.Cell
  out : List Byte
  faults : List FaultReport
  deriving DecidableEq, Repr

/-- The architectural part of a state. -/
def State.arch (s : State) : Arch :=
  { a := s.a, x := s.x, y := s.y, z := s.z, c := s.c, pc := s.pc, cells := s.cells, out := s.out, faults := s.faults }

/-- The three bytes at PC, each address modulo 65536 (R55): as many as the longest instruction has. -/
def State.codeBytes (s : State) : List Byte := [s.cell s.pc, s.cell (s.pc + 1), s.cell (s.pc + 2)]

/-- SYS with X = 2 or X = 3, the string prints, whose length depends on memory (R99). -/
def isStringPrint (i : Instr) (x : Byte) : Bool :=
  match i with
  | .sys _ => x == 0x02#8 || x == 0x03#8
  | _ => false

/-- What a whole instruction other than a string print does to the architectural state, `r.pc` being already past its
bytes (R79 to R98, R102). -/
def effect (useCarry : Bool) (i : Instr) (r : Arch) : Arch :=
  let m (ea : Word) : Byte := Memory.read r.cells ea.toNat
  match i with
  | .ldaImm b => { r with a := b }
  | .ldaAbs ea => { r with a := m ea }
  | .ldxImm b => { r with x := b }
  | .ldxAbs ea => { r with x := m ea }
  | .ldyImm b => { r with y := b }
  | .ldyAbs ea => { r with y := m ea }
  | .staAbs ea => { r with cells := Memory.write r.cells ea.toNat r.a }
  | .txa => { r with a := r.x }
  | .tya => { r with a := r.y }
  | .tax => { r with x := r.a }
  | .tay => { r with y := r.a }
  | .adcAbs ea =>
    let sum := r.a.toNat + (m ea).toNat + (if useCarry && r.c then 1 else 0)
    { r with a := BitVec.ofNat 8 sum, c := decide (0xFF < sum) }
  | .cpxAbs ea => { r with z := r.x == m ea, c := decide ((m ea).toNat ≤ r.x.toNat) }
  | .incAbs ea => { r with cells := Memory.write r.cells ea.toNat (m ea + 1) }
  | .bne rel => if r.z then r else { r with pc := r.pc + rel.signExtend 16 }
  | .nop => r
  | .brk => r
  | .sys _ =>
    if r.x = 0x01#8 then { r with out := r.out ++ decimal r.y }
    else
      { r with
        faults := r.faults ++
          [{ kind := .invalidSyscall, info := r.x.toNat, pc := r.pc, opcode := 0xFF#8, stage := .execute }] }

/-- The ticks of an instruction other than a string print, from its first Fetch tick to its InterruptCheck, to BRK's
stop, or to its fault (R137). -/
def ticksOf (i : Instr) (x : Byte) : Nat :=
  match i with
  | .txa | .tya | .tax | .tay | .nop => 5
  | .ldaImm _ | .ldxImm _ | .ldyImm _ | .bne _ => 7
  | .ldaAbs _ | .ldxAbs _ | .ldyAbs _ | .staAbs _ | .adcAbs _ | .cpxAbs _ => 10
  | .incAbs _ => 11
  | .brk => 4
  | .sys _ => if x = 0x01#8 then 5 else 4

/-- The string `bs` lies in memory from `p` on, its bytes not 0x00, ending in a 0x00, and the pointer walks it by
`nextStrPtr` (R99). -/
def stringAt (cells : List Host.Cell) (x : Byte) (p : Word) (bs : List Byte) : Prop :=
  match bs with
  | [] => Memory.read cells p.toNat = 0x00#8
  | b :: rest =>
    Memory.read cells p.toNat = b ∧ b ≠ 0x00#8 ∧
      ∃ q, nextStrPtr Config.sys2PageCross Config.strWrap x p = some q ∧ stringAt cells x q rest

end Sys2Proof.Machine
end

