-- ==== Sys2Proof/Certificates/Slice0/Obligations.lean ====
section
/-! DEFINITION. The statements for the provers. Each docstring names the rules of spec/ that its statement formalises;
where it rests on a decision the spec marks as its own, or on a choice of the model, it says so. -/

open Sys2Proof Sys2Proof.Machine

/-! ## Encoding and decoding -/

/-- Decoding the encoding of a well-formed instruction gives it back, with the bytes after it (R55 to R61). -/
def Obligations.DecodeEncodeRoundTrip : Prop :=
  ∀ (x : Byte) (i : Instr) (rest : List Byte), i.wellFormed x = true →
    decode x (encode i ++ rest) = .ok (i, rest)

/-- Bytes that decode are the encoding of the instruction they decode to, which is well formed: no bit of an encoding
is dropped and no second encoding exists (R55, R56, R60, R61). -/
def Obligations.EncodeDecodeAgree : Prop :=
  ∀ (x : Byte) (bytes rest : List Byte) (i : Instr), decode x bytes = .ok (i, rest) →
    bytes = encode i ++ rest ∧ i.wellFormed x = true

/-- Every byte except the eighteen opcodes of R61 is refused by the decoder under its own name, whatever X holds and
whatever follows it (R62). -/
def Obligations.UndefinedOpcodesRefused : Prop :=
  ∀ (x op : Byte) (rest : List Byte),
    (op ∈ [0x00#8, 0x6D#8, 0x8A#8, 0x8D#8, 0x98#8, 0xA0#8, 0xA2#8, 0xA8#8, 0xA9#8, 0xAA#8, 0xAC#8, 0xAD#8,
        0xAE#8, 0xD0#8, 0xEA#8, 0xEC#8, 0xEE#8, 0xFF#8] ∧
      ∃ i more, decode x (op :: 0x00#8 :: 0x00#8 :: rest) = .ok (i, more)) ∨
    (op ∉ [0x00#8, 0x6D#8, 0x8A#8, 0x8D#8, 0x98#8, 0xA0#8, 0xA2#8, 0xA8#8, 0xA9#8, 0xAA#8, 0xAC#8, 0xAD#8,
        0xAE#8, 0xD0#8, 0xEA#8, 0xEC#8, 0xEE#8, 0xFF#8] ∧
      decode x (op :: rest) = .error (.unknownOpcode op))

/-- Words written out from the encodings decode to the instructions they stand for (R57 to R62; 95_test_vectors.md
section 1.3). That the words of SYS are read under X = 3 where they are longer than the opcode byte, and every other word
under X = 0x00, is the model's choice (log entry 1); that SYS with X = 0x00 has no operand bytes is decision D8 of the
spec (log entry 13). -/
def Obligations.SampleWordsDecode : Prop :=
  decodeTableWord 16 0x05A9 = some (.ldaImm 0x05#8) ∧
    decodeTableWord 24 0x0010AD = some (.ldaAbs 0x0010#16) ∧
    decodeTableWord 24 0x00408D = some (.staAbs 0x0040#16) ∧
    decodeTableWord 8 0x8A = some .txa ∧
    decodeTableWord 24 0x02006D = some (.adcAbs 0x0200#16) ∧
    decodeTableWord 16 0xFED0 = some (.bne 0xFE#8) ∧
    decodeTableWord 8 0xFF = some (.sys none) ∧
    decodeTableWord 24 0x0006FF = some (.sys (some 0x0006#16)) ∧
    decodeTableWord 8 0x02 = none

/-! ## A step runs the decoded instruction -/

/-- In the Execute phase a step is `exec` of the instruction that IR and the operand latches stand for, in the state
whose sub-pulse has been counted up, followed by the Memory and IC phases (R65, R68, R70, R74). -/
def Obligations.ExecuteTickRunsExec : Prop :=
  ∀ (s : State) (i : Instr), s.active → s.phase = .execute →
    instrOfTag s.ir s.x s.operand0 s.operand1 = some i →
      step s = andThen (exec i s.tickStart.nextPulse) (fun t => .next t.laterPhases)

/-- From an instruction boundary, where the bytes at PC decode to an instruction of N operand bytes, 2N + 3 ticks fetch
and latch it, whatever interrupts arrive: the next step is its Execute sub-pulse 1, PC is past the instruction, and
nothing else of the architectural state has changed (R71 to R73, R138). The tick that captures the last operand byte is
not an Execute tick: that is decision D4 of the spec. -/
def Obligations.FrontEndLatchesInstruction : Prop :=
  ∀ (s : State) (i : Instr) (rest : List Byte), s.boundary → decode s.x s.codeBytes = .ok (i, rest) →
    ∃ t, run (2 * (operandsOf i).length + 3) s = .next t ∧
      t.active ∧ t.phase = .execute ∧ t.pulse = 0 ∧
      t.opcode = opcodeOf i ∧ t.ir = tagOf i ∧ instrOfTag t.ir t.x t.operand0 t.operand1 = some i ∧
      t.arch = { s.arch with pc := s.pc + BitVec.ofNat 16 (encode i).length } ∧
      t.writeAddress = none ∧ t.writeValue = none ∧ t.readPending = false ∧ t.writePending = false

/-- A placed instruction is run by the very next step: where the bits of an instruction are placed, the step is `exec`
of what the decoder reads from them, in sub-pulse 1, followed by the Memory and IC phases. How an instruction is placed
is the model's own (log entry 1). -/
def Obligations.PlacedInstructionRunsNext : Prop :=
  ∀ (s : State) (nbits w : Nat) (i : Instr) (rest : List Byte),
    decode (tableX nbits w s.x) [tableByte nbits w 0, tableByte nbits w 1, tableByte nbits w 2] = .ok (i, rest) →
      step (s.withFetchWord nbits w) =
        andThen (exec i (s.withFetchWord nbits w).tickStart.nextPulse) (fun t => .next t.laterPhases) ∧
      (s.withFetchWord nbits w).pulse = 0 ∧
      (s.withFetchWord nbits w).pc = s.pc + BitVec.ofNat 16 (encode i).length ∧
      (s.withFetchWord nbits w).a = s.a ∧ (s.withFetchWord nbits w).y = s.y ∧
      (s.withFetchWord nbits w).z = s.z ∧ (s.withFetchWord nbits w).c = s.c

/-- With `running` false the state is final: a step changes nothing (R25, R134). -/
def Obligations.StoppedStepChangesNothing : Prop :=
  ∀ s : State, s.running = false → step s = .next s

/-- While the program loads the CPU phase is a no-op: a step changes no register of the CPU and no output, and does not
count a sub-pulse (R67; that `pulse_in_step` is not counted is decision D26). -/
def Obligations.CpuIdleWhileLoading : Prop :=
  ∀ s : State, s.running = true → s.isLoading = true →
    ∃ t, step s = .next t ∧ t.a = s.a ∧ t.x = s.x ∧ t.y = s.y ∧ t.z = s.z ∧ t.c = s.c ∧ t.pc = s.pc ∧
      t.opcode = s.opcode ∧ t.ir = s.ir ∧ t.operand0 = s.operand0 ∧ t.operand1 = s.operand1 ∧
      t.stage = s.stage ∧ t.pulse = s.pulse ∧ t.fetchCount = s.fetchCount ∧ t.currentFetch = s.currentFetch ∧
      t.writeAddress = s.writeAddress ∧ t.writeValue = s.writeValue ∧ t.strPtr = s.strPtr ∧ t.out = s.out ∧
      t.faults = s.faults ∧ t.running = true

/-! ## The results of the instructions -/

/-- `done` goes to Writeback if and only if both halves of the deferred write are set, else to InterruptCheck, and
changes nothing but the stage and the sub-pulse count (R69, R74; the gate is 90_conflicts.md C5). -/
def Obligations.DoneGoesToWritebackIffBothSet : Prop :=
  ∀ s : State,
    (∀ a v, s.writeAddress = some a → s.writeValue = some v → s.done = { s with stage := .writeback, pulse := 0 }) ∧
    (s.writeAddress = none → s.done = { s with stage := .interruptCheck, pulse := 0 }) ∧
    (s.writeValue = none → s.done = { s with stage := .interruptCheck, pulse := 0 })

/-- LDA, LDX and LDY immediate: one sub-pulse loads the operand byte and is done; no flag and nothing else is written
(R79, R81, R83). -/
def Obligations.LoadImmediateResult : Prop :=
  ∀ (imm : Byte) (s : State), s.pulse = 1 →
    (encode (.ldaImm imm) = [0xA9#8, imm] ∧ exec (.ldaImm imm) s = .next { s with a := imm }.done) ∧
    (encode (.ldxImm imm) = [0xA2#8, imm] ∧ exec (.ldxImm imm) s = .next { s with x := imm }.done) ∧
    (encode (.ldyImm imm) = [0xA0#8, imm] ∧ exec (.ldyImm imm) s = .next { s with y := imm }.done)

/-- LDA, LDX and LDY absolute: a two-tick read of `cells[ea]` into the register; no flag and nothing else is written
(R80, R82, R84). -/
def Obligations.LoadAbsoluteResult : Prop :=
  ∀ ea : Word,
    (encode (.ldaAbs ea) = [0xAD#8, lowByte ea, highByte ea] ∧
      ReadsOperand (.ldaAbs ea) ea (fun m s => { s with a := m })) ∧
    (encode (.ldxAbs ea) = [0xAE#8, lowByte ea, highByte ea] ∧
      ReadsOperand (.ldxAbs ea) ea (fun m s => { s with x := m })) ∧
    (encode (.ldyAbs ea) = [0xAC#8, lowByte ea, highByte ea] ∧
      ReadsOperand (.ldyAbs ea) ea (fun m s => { s with y := m }))

/-- STA absolute: sub-pulse 1 queues the write of A to ea, sub-pulse 2 does nothing and is done. The Memory phase after
sub-pulse 1 puts A into the cell at ea and into no other cell (R85). -/
def Obligations.StoreAbsoluteResult : Prop :=
  ∀ (ea : Word) (s : State),
    encode (.staAbs ea) = [0x8D#8, lowByte ea, highByte ea] ∧
    (s.pulse = 1 → exec (.staAbs ea) s = .next { s with mar := ea, mdr := s.a, writePending := true }) ∧
    (s.pulse = 2 → exec (.staAbs ea) s = .next s.done) ∧
    (s.pulse = 1 → Memory.wf s.cells → ∃ t, exec (.staAbs ea) s = .next t ∧
      ∀ b : Word, t.commitWrite.cell b = if b = ea then s.a else s.cell b)

/-- TXA, TYA, TAX and TAY: one sub-pulse copies the register and is done; no flag and nothing else is written (R86 to
R89). -/
def Obligations.TransferResult : Prop :=
  ∀ s : State, s.pulse = 1 →
    (encode .txa = [0x8A#8] ∧ exec .txa s = .next { s with a := s.x }.done) ∧
    (encode .tya = [0x98#8] ∧ exec .tya s = .next { s with a := s.y }.done) ∧
    (encode .tax = [0xAA#8] ∧ exec .tax s = .next { s with x := s.a }.done) ∧
    (encode .tay = [0xA8#8] ∧ exec .tay s = .next { s with y := s.a }.done)

/-- ADC absolute: sum is A + m + (1 if USE_CARRY and C), an unbounded integer; C is sum > 0xFF, A is sum mod 256, and
nothing else is written, Z among it (R90). -/
def Obligations.AdcAbsoluteResult : Prop :=
  ∀ ea : Word, encode (.adcAbs ea) = [0x6D#8, lowByte ea, highByte ea] ∧
    ReadsOperand (.adcAbs ea) ea (fun m s =>
      { s with
        c := decide (0xFF < s.a.toNat + m.toNat + (if s.useCarry = true ∧ s.c = true then 1 else 0))
        a := BitVec.ofNat 8
          ((s.a.toNat + m.toNat + (if s.useCarry = true ∧ s.c = true then 1 else 0)) % 256) })

/-- CPX absolute: Z is (X − m) mod 256 = 0 and C is X ≥ m unsigned; A, X, memory and all else are unchanged (R91). -/
def Obligations.CpxAbsoluteResult : Prop :=
  ∀ ea : Word, encode (.cpxAbs ea) = [0xEC#8, lowByte ea, highByte ea] ∧
    ReadsOperand (.cpxAbs ea) ea (fun m s =>
      { s with z := s.x - m == 0x00#8, c := decide (s.x.toNat ≥ m.toNat) })

/-- INC absolute: the two-tick read latches the deferred write of (m + 1) mod 256 to ea, writing no flag, and the next
stage is Writeback, whose tick puts that value into the cell at ea (R92). -/
def Obligations.IncAbsoluteResult : Prop :=
  ∀ ea : Word, encode (.incAbs ea) = [0xEE#8, lowByte ea, highByte ea] ∧
    ReadsOperand (.incAbs ea) ea (fun m s =>
      { s with writeAddress := some ea, writeValue := some (BitVec.ofNat 8 ((m.toNat + 1) % 256)) }) ∧
    ∀ s t : State, s.pulse = 2 → exec (.incAbs ea) s = .next t → t.stage = .writeback ∧ t.pulse = 0 ∧
      (t.active → t.phase = .writeback → t.readPending = false → Memory.wf t.cells → ∃ u, step t = .next u ∧
        u.cell ea = BitVec.ofNat 8 ((s.mdr.toNat + 1) % 256) ∧ u.z = t.z ∧ u.c = t.c)

/-- BNE: with Z false PC becomes (PC + sign-extended operand) mod 65536, PC being already past the instruction; with Z
true nothing is written. One sub-pulse, then done (R94, R58). -/
def Obligations.BneRelativeResult : Prop :=
  ∀ (rel : Byte) (s : State), s.pulse = 1 →
    encode (.bne rel) = [0xD0#8, rel] ∧
    (s.z = false → exec (.bne rel) s =
      .next { s with pc := BitVec.ofInt 16 ((s.pc.toNat : Int) + rel.toInt) }.done) ∧
    (s.z = true → exec (.bne rel) s = .next s.done)

/-- NOP: no action, done (R95). -/
def Obligations.NopResult : Prop :=
  ∀ s : State, s.pulse = 1 → encode .nop = [0xEA#8] ∧ exec .nop s = .next s.done

/-- BRK: `stop()`, that is running ← false and waiting ← empty, and done; no register, flag, cell, output or fault
changes (R96, R77). -/
def Obligations.BrkResult : Prop :=
  ∀ s : State, s.pulse = 1 →
    encode .brk = [0x00#8] ∧ exec .brk s = .next { s with running := false, waiting := [] }.done

/-- SYS with X = 1 appends the decimal digits of Y, most significant first and without leading zeros, each digit d as
the byte 0x30 + d, and is done (R97, R98). The digit codes are decision D16 of the spec (log entry 9). That an operand
given with X = 1, which the decoder never gives, is ignored is the model's choice (log entry 7). -/
def Obligations.SysPrintsDecimal : Prop :=
  ∀ (start : Option Word) (s : State), s.pulse = 1 → s.x = 0x01#8 →
    ∃ ds : List Nat, exec (.sys start) s =
        .next { s with out := s.out ++ ds.map (fun d => BitVec.ofNat 8 (0x30 + d)) }.done ∧
      ds ≠ [] ∧ (∀ d ∈ ds, d < 10) ∧ ds.foldl (fun n d => 10 * n + d) 0 = s.y.toNat ∧
      (ds.head? = some 0 → ds = [0])

/-- SYS with X outside 1, 2, 3 is abandoned at sub-pulse 1 with an InvalidSyscall report that records X and PC: the
pipeline goes to Fetch and nothing else changes but what the fault action clears (R102, R105, R108). The point of the
fault is decision D8 of the spec (log entry 13), the fault action and the report its decisions D9 and D10 (log entry 14).
That an operand given with such an X, which the decoder never gives, is ignored is the model's choice (log entry 7). -/
def Obligations.SysInvalidIsLogged : Prop :=
  ∀ (start : Option Word) (s : State), s.pulse = 1 → s.x ∉ [0x01#8, 0x02#8, 0x03#8] → s.phase = .execute →
    exec (.sys start) s =
      .next { s with
        faults := s.faults ++
          [{ kind := .invalidSyscall, info := s.x.toNat, pc := s.pc, opcode := s.opcode, stage := .execute }]
        stage := .fetch, pulse := 0, fetchCount := 0, currentFetch := 0, writeAddress := none, writeValue := none }

/-- The sub-pulses of a SYS string print: the first sets `str_ptr` to Y (X = 2) or to the operand (X = 3) and triggers
its read; every later odd one triggers the read at `str_ptr`; an even one ends at 0x00 and otherwise emits the byte and
moves `str_ptr` on, or logs MemoryOutOfRange(0x10000) where the pointer has no successor, the byte staying in the output
(R99 to R101, R105, R107). The two-sub-pulse cadence is decision D5 of the spec (log entry 12), the successor depends on
its OPEN parameters (D6, D7; log entry 6), and the report's fields, the cleared counters and deferred write, and the kept
output are its decisions D9, D10 and D31 (log entry 14). That an operand given with X = 2 is ignored is the model's choice
(log entry 7). -/
def Obligations.SysStringSubPulses : Prop :=
  ∀ (arg : Option Word) (s : State), s.x = 0x02#8 ∨ (s.x = 0x03#8 ∧ arg.isSome) →
    (s.pulse = 1 → s.x = 0x02#8 → exec (.sys arg) s =
      .next ({ s with strPtr := s.y.setWidth 16 }.triggerRead (s.y.setWidth 16))) ∧
    (∀ ea, s.pulse = 1 → s.x = 0x03#8 → arg = some ea → exec (.sys arg) s =
      .next ({ s with strPtr := ea }.triggerRead ea)) ∧
    (s.pulse ≠ 1 → s.pulse % 2 = 1 → exec (.sys arg) s = .next (s.triggerRead s.strPtr)) ∧
    (0 < s.pulse → s.pulse % 2 = 0 → s.readCompleted = true → s.mdr = 0x00#8 →
      exec (.sys arg) s = .next s.done) ∧
    (0 < s.pulse → s.pulse % 2 = 0 → s.readCompleted = true → s.mdr ≠ 0x00#8 →
      (∀ p, nextStrPtr Config.sys2PageCross Config.strWrap s.x s.strPtr = some p →
        exec (.sys arg) s = .next { s with out := s.out ++ [s.mdr], strPtr := p }) ∧
      (nextStrPtr Config.sys2PageCross Config.strWrap s.x s.strPtr = none → s.phase = .execute →
        exec (.sys arg) s =
          .next { s with
            out := s.out ++ [s.mdr]
            faults := s.faults ++
              [{ kind := .memoryOutOfRange, info := 0x10000, pc := s.pc, opcode := s.opcode, stage := .execute }]
            stage := .fetch, pulse := 0, fetchCount := 0, currentFetch := 0
            writeAddress := none, writeValue := none }))

/-- Where the string pointer goes, for every value of the two OPEN parameters (R99, decisions D6 and D7): a zero-page
print under ZeroPageWrap stays in page zero; otherwise the pointer counts up, and from 0xFFFF it goes to 0x0000 under
Wrap and has no successor under Fault. -/
def Obligations.StringPointerSuccessor : Prop :=
  ∀ (cross : PageCross) (atTop : StrWrap) (x : Byte) (p : Word),
    nextStrPtr cross atTop x p =
      if x = 0x02#8 ∧ cross = .zeroPageWrap then some (BitVec.ofNat 16 ((p.toNat + 1) % 256))
      else if p.toNat < 65535 then some (BitVec.ofNat 16 (p.toNat + 1))
      else if atTop = .wrap then some 0x0000#16 else none

/-- The Writeback tick of a running machine commits the deferred write, clears both halves, and goes to InterruptCheck:
the cell at the address holds the value after the tick, and every other cell what it held before (R75, R39). -/
def Obligations.WritebackCommitsDeferredWrite : Prop :=
  ∀ (s : State) (a : Word) (v : Byte), s.active → s.phase = .writeback → s.readPending = false →
    Memory.wf s.cells → s.writeAddress = some a → s.writeValue = some v →
    ∃ t, step s = .next t ∧ t.stage = .interruptCheck ∧ t.pulse = 0 ∧ t.writeAddress = none ∧
      t.writeValue = none ∧ t.writePending = false ∧ ∀ b : Word, t.cell b = if b = a then v else s.cell b

/-! ## What an instruction leaves unchanged -/

/-- Every instruction except ADC and CPX leaves Z and C unchanged, and ADC leaves Z unchanged (R14). -/
def Obligations.FlagsWrittenOnlyByAdcAndCpx : Prop :=
  ∀ (i : Instr) (s t : State), exec i s = .next t →
    ((∀ ea, i ≠ .cpxAbs ea) → t.z = s.z) ∧
    ((∀ ea, i ≠ .cpxAbs ea) → (∀ ea, i ≠ .adcAbs ea) → t.c = s.c)

/-- The writers of the data registers: A by LDA, TXA, TYA and ADC; X by LDX and TAX; Y by LDY and TAY; each other
instruction leaves the register unchanged (R9, R10, R11). -/
def Obligations.DataRegisterWriters : Prop :=
  ∀ (i : Instr) (s t : State), exec i s = .next t →
    (tagOf i ∉ [IrTag.ldaImm, .ldaAbs, .txa, .tya, .adcAbs] → t.a = s.a) ∧
    (tagOf i ∉ [IrTag.ldxImm, .ldxAbs, .tax] → t.x = s.x) ∧
    (tagOf i ∉ [IrTag.ldyImm, .ldyAbs, .tay] → t.y = s.y)

/-- The remaining registers: only BNE redirects PC, only INC sets the deferred write, only BRK clears `running`, only
SYS writes `str_ptr`, the output or the fault log; and no instruction writes the opcode, IR, the operand latches, the
pending interrupt, the configuration, the program queue or the loader's registers (R15 to R18, R22 to R25, R30, R31,
R97, R103, R104, R117). -/
def Obligations.ControlRegisterFrame : Prop :=
  ∀ (i : Instr) (s t : State), exec i s = .next t →
    (tagOf i ≠ .bneRel → t.pc = s.pc) ∧
    (tagOf i ≠ .incAbs → tagOf i ≠ .sys → t.writeAddress = s.writeAddress ∧ t.writeValue = s.writeValue) ∧
    (tagOf i ≠ .brk → t.running = s.running ∧ t.waiting = s.waiting) ∧
    (tagOf i ≠ .sys → t.strPtr = s.strPtr ∧ t.out = s.out ∧ t.faults = s.faults) ∧
    t.opcode = s.opcode ∧ t.ir = s.ir ∧ t.operand0 = s.operand0 ∧ t.operand1 = s.operand1 ∧
    t.pendingInterrupt = s.pendingInterrupt ∧ t.useCarry = s.useCarry ∧ t.debugLog = s.debugLog ∧
    t.programQueue = s.programQueue ∧ t.loadAddress = s.loadAddress ∧ t.isLoading = s.isLoading ∧
    t.arrivals = s.arrivals ∧ t.tickCount = s.tickCount

/-- No Execute sub-pulse writes a cell itself; it queues a write only if it is STA's first sub-pulse, and then of A to
STA's effective address; and it queues at most one of a read and a write (R38, R45, R85). -/
def Obligations.ExecQueuesOnlyStoreOfSta : Prop :=
  ∀ (i : Instr) (s t : State), exec i s = .next t →
    (∀ b : Word, t.cell b = s.cell b) ∧
    ((t.writePending = s.writePending ∧ t.mdr = s.mdr) ∨
      ∃ ea, i = .staAbs ea ∧ s.pulse = 1 ∧ t.writePending = true ∧ t.mar = ea ∧ t.mdr = s.a ∧
        t.readPending = s.readPending)

/-- The cells a whole step can change: from a state that meets the invariant, a step leaves every cell as it was except
the one at MAR after the CPU phase, where a write is pending then; that cell takes MDR (R39, R44). -/
def Obligations.StepWritesOnlyTheLatchedCell : Prop :=
  ∀ s t : State, s.Inv → step s = .next t → s.running = true →
    ∃ u, cpuTick s.tickStart = .next u ∧
      ∀ b : Word, t.cell b = if u.writePending = true ∧ b = u.mar then u.mdr else s.cell b

/-- A step moves PC only by capturing an instruction byte, which adds 1, or by a BNE that is taken, which adds the
sign-extended operand (R15, R71, R72, R94, R103). -/
def Obligations.StepMovesPcOnlyByFetchOrBranch : Prop :=
  ∀ s t : State, step s = .next t → t.pc ≠ s.pc →
    ((s.phase = .fetch ∨ s.phase = .operandFetch) ∧ s.pulse = 1 ∧ t.pc = s.pc + 1) ∨
    (s.phase = .execute ∧ s.ir = .bneRel ∧ s.z = false ∧ t.pc = s.pc + s.operand0.signExtend 16)

/-- USE_CARRY is read by ADC alone: with it changed, every other instruction answers the same but for USE_CARRY itself
(R7, R13). -/
def Obligations.CarryConfigReadOnlyByAdc : Prop :=
  ∀ (i : Instr) (b : Bool) (s : State), tagOf i ≠ .adcAbs →
    exec i { s with useCarry := b } = andThen (exec i s) (fun t => .next { t with useCarry := b })

/-- DEBUG changes no state of the core: a step with it changed answers the same but for DEBUG itself (R7, R125). -/
def Obligations.DebugHasNoEffect : Prop :=
  ∀ (b : Bool) (s : State),
    step { s with debugLog := b } = andThen (step s) (fun t => .next { t with debugLog := b })

/-! ## Faults -/

/-- An undefined opcode in Decode is logged with the opcode, stage Decode and PC, and the next tick begins a Fetch at
the byte that follows it; registers, flags, memory and output are kept (R62, R73, R105, R106). The fault skips the
interrupt service, so the pending slot holds the winner among this tick's arrivals, or where there are none what it held
(R114). The fault action and the form of the report are decisions D9 and D10 of the spec (log entry 14), the slot with and
without a winner is its decision D11 (log entry 15), and the arrivals are a field of the model (log entry 2). -/
def Obligations.UnknownOpcodeIsLogged : Prop :=
  ∀ s : State, s.Inv → s.active → s.phase = .decode → lookupRow s.opcode = none →
    ∃ t, step s = .next t ∧
      t.arch = { s.arch with faults := s.faults ++
        [{ kind := .unknownOpcode, info := s.opcode.toNat, pc := s.pc, opcode := s.opcode, stage := .decode }] } ∧
      t.stage = .fetch ∧ t.pulse = 0 ∧ t.phase = .fetch ∧ t.running = true ∧
      t.pendingInterrupt = (winner (s.arrivals.headD [])).or s.pendingInterrupt

/-- Where faults come from: a step that logs one is a Decode of an undefined opcode, or Execute of SYS with an invalid X,
or of a SYS string print (X = 2 or X = 3) whose pointer has no successor; it logs exactly one (R104, R118). That an
invalid X faults in Execute is decision D8 of the spec (log entry 13), that the fault is one report at the end of the log
its decisions D9 and D10 (log entry 14), and the successor depends on its OPEN parameters (D6, D7; log entry 6). -/
def Obligations.FaultSources : Prop :=
  ∀ s t : State, step s = .next t → t.faults = s.faults ∨
    ∃ r, t.faults = s.faults ++ [r] ∧
      ((r.kind = .unknownOpcode ∧ s.phase = .decode ∧ lookupRow s.opcode = none) ∨
        (r.kind = .invalidSyscall ∧ s.phase = .execute ∧ s.ir = .sys ∧ s.x ∉ [0x01#8, 0x02#8, 0x03#8]) ∨
        (r.kind = .memoryOutOfRange ∧ s.phase = .execute ∧ s.ir = .sys ∧ (s.x = 0x02#8 ∨ s.x = 0x03#8) ∧
          nextStrPtr Config.sys2PageCross Config.strWrap s.x s.strPtr = none))

/-- Faults are precise: a step that logs a fault changes no data register, no flag, no PC and no cell (R105, R110; that
PC is kept is decision D9 of the spec). -/
def Obligations.FaultsArePrecise : Prop :=
  ∀ s t : State, s.Inv → step s = .next t → t.faults ≠ s.faults →
    t.a = s.a ∧ t.x = s.x ∧ t.y = s.y ∧ t.z = s.z ∧ t.c = s.c ∧ t.pc = s.pc ∧ t.cells = s.cells ∧
      t.stage = .fetch ∧ t.pulse = 0

/-! ## Interrupts -/

/-- The arbiter's winner is the earliest record of greatest priority: every record before it has a lower priority and
none after it a higher one; there is a winner exactly when a record waits (R114). -/
def Obligations.ArbiterPicksEarliestOfGreatestPriority : Prop :=
  ∀ l : List Interrupt,
    (winner l = none ↔ l = []) ∧
    ∀ w, winner l = some w → ∃ before after, l = before ++ w :: after ∧
      (∀ r ∈ before, r.priority < w.priority) ∧ (∀ r ∈ after, r.priority ≤ w.priority)

/-- The arrivals of a tick become the pending interrupt of the next one: after a step that does not stop the machine the
pending slot holds the winner among this tick's arrivals, or where there are none what the CPU phase left in it, which
is nothing after InterruptCheck; and nothing is left waiting (R66, R114, R116). Keeping the slot with no arrivals, and
overwriting it with a winner, is decision D11 of the spec (log entry 15). That this tick's arrivals are the head of the
field `arrivals`, none where it is empty, and that the step takes them off it, is the model's choice (log entry 2). -/
def Obligations.ArrivalsBecomePending : Prop :=
  ∀ s t : State, s.Inv → s.running = true → step s = .next t → t.running = true →
    t.waiting = [] ∧ t.arrivals = s.arrivals.tail ∧
    t.pendingInterrupt = (winner (s.arrivals.headD [])).or
      (if s.phase = .interruptCheck ∧ s.isLoading = false then none else s.pendingInterrupt)

/-- The InterruptCheck tick: a pending keyboard record with data 0x71 or 0x51 stops the machine, and this tick's arrivals
are dropped; any other record is discarded. Either way the slot is cleared: it is empty after the tick, or, where the
machine goes on, holds the winner among this tick's arrivals alone. The next stage is Fetch, nothing is left waiting, and
no register, flag, cell, output or fault changes (R66, R76, R77, R114, R116). The two byte values are decision D27 of the
spec (log entry 9), the dropped arrivals are its decision D14 (log entry 2). -/
def Obligations.InterruptCheckServesPending : Prop :=
  ∀ s : State, s.Inv → s.active → s.phase = .interruptCheck →
    ∃ t, step s = .next t ∧ t.arch = s.arch ∧ t.stage = .fetch ∧ t.pulse = 0 ∧
      (t.running = false ↔ ∃ i, s.pendingInterrupt = some i ∧ i.device = .keyboard ∧
        (i.data = 0x71#8 ∨ i.data = 0x51#8)) ∧
      (t.running = false → t.pendingInterrupt = none) ∧
      (t.running = true → t.pendingInterrupt = winner (s.arrivals.headD [])) ∧
      t.waiting = [] ∧ t.arrivals = s.arrivals.tail

/-- A quit key latched at an instruction boundary stops the machine at that instruction's InterruptCheck, with the
instruction's whole effect, if no record arrives until then: for every instruction that ends in an InterruptCheck other
than a string print (R116, R119). The two byte values are decision D27 of the spec (log entry 9), that the slot survives
ticks without arrivals is its decision D11 (log entry 15), and the number of ticks rests on its decision D4 (log
entry 11). -/
def Obligations.PendingQuitStopsAfterInstruction : Prop :=
  ∀ (s : State) (i : Instr) (rest : List Byte) (q : Interrupt), s.Inv → s.boundary →
    decode s.x s.codeBytes = .ok (i, rest) → isStringPrint i s.x = false → i ≠ .brk →
    (tagOf i = .sys → s.x = 0x01#8) → s.pendingInterrupt = some q → q.device = .keyboard →
    (q.data = 0x71#8 ∨ q.data = 0x51#8) → (∀ l ∈ s.arrivals.take (ticksOf i s.x - 1), l = []) →
    ∃ t, run (ticksOf i s.x) s = .next t ∧ t.running = false ∧ t.stage = .fetch ∧
      t.arch = effect s.useCarry i { s.arch with pc := s.pc + BitVec.ofNat 16 (encode i).length }

/-! ## Start, load and the end of a run -/

/-- The state after reset: every value of the table of 10_state.md section 8, before Start, every cell 0x00 among them.
Many of these are decisions D10, D17 and D18 of the spec (log entry 16), the tag code of NONE is its decision D22 (log
entry 19). -/
def Obligations.ResetState : Prop :=
  State.reset.a = 0x00#8 ∧ State.reset.x = 0x00#8 ∧ State.reset.y = 0x00#8 ∧ State.reset.z = false ∧
    State.reset.c = false ∧ State.reset.pc = 0x0000#16 ∧ State.reset.opcode = 0x00#8 ∧
    State.reset.ir = .none ∧ tagCode State.reset.ir = 0#5 ∧ State.reset.operand0 = 0x00#8 ∧
    State.reset.operand1 = 0x00#8 ∧ State.reset.stage = .fetch ∧
    State.reset.pulse = 0 ∧ State.reset.fetchCount = 0 ∧ State.reset.currentFetch = 0 ∧
    State.reset.writeAddress = none ∧ State.reset.writeValue = none ∧ State.reset.strPtr = 0x0000#16 ∧
    State.reset.pendingInterrupt = none ∧ State.reset.running = false ∧ State.reset.mar = 0x0000#16 ∧
    State.reset.mdr = 0x00#8 ∧ State.reset.readPending = false ∧ State.reset.writePending = false ∧
    State.reset.programQueue = [] ∧ State.reset.loadAddress = 0x0000#16 ∧ State.reset.isLoading = false ∧
    State.reset.waiting = [] ∧ State.reset.out = [] ∧ State.reset.faults = [] ∧ ∀ a : Word, State.reset.cell a = 0x00#8

/-- What Start leaves for a program of 1 to 65 536 bytes, from any stopped state: the reset values, the first byte
queued for 0x0000, the rest in the program queue, the load in progress, the configuration taken, and nothing kept of the
earlier run (R127, R128, R131). The start sequence is decision D18 of the spec and many of the values its decision D17
(log entry 16); the input of arrivals to come is a field of the model that Start leaves (log entry 2), and the Clock's
count starts again at 0 (log entry 4). -/
def Obligations.StartState : Prop :=
  ∀ (b : Byte) (rest : List Byte) (useCarry debugLog : Bool) (s : State), s.running = false →
    (b :: rest).length ≤ 65536 →
    start (b :: rest) useCarry debugLog s =
      .next { State.reset with
        running := true, useCarry := useCarry, debugLog := debugLog, mdr := b, writePending := true
        programQueue := rest, loadAddress := 0x0001#16, isLoading := true, arrivals := s.arrivals }

/-- The other outcomes of Start: an empty program leaves the core stopped in its reset state (R129), a program of more
than 65 536 bytes is refused (R130), and so is a Start while running (R131). These are decisions D19, D20 and D29 of the
spec (log entry 17); the input of arrivals to come is a field of the model that Start leaves (log entry 2), and the
Clock's count starts again at 0 (log entry 4). -/
def Obligations.StartRefusalsAndEmptyProgram : Prop :=
  ∀ (p : List Byte) (useCarry debugLog : Bool) (s : State),
    (s.running = true → start p useCarry debugLog s = .refused .startWhileRunning) ∧
    (s.running = false → 65536 < p.length → start p useCarry debugLog s = .refused .programTooLong) ∧
    (s.running = false → start [] useCarry debugLog s =
      .next { State.reset with useCarry := useCarry, debugLog := debugLog, arrivals := s.arrivals })

/-- The load of a program of L bytes takes exactly L ticks, whatever interrupts arrive: after k < L ticks the first k
bytes are in memory and the load goes on; after L ticks every byte is at its address, every other cell is 0x00, the load
has ended, and the machine is at an instruction boundary with PC = 0x0000 and no register touched (R46 to R48, R128).
That A and X hold 0x00 then is decision D17 of the spec (log entry 16). -/
def Obligations.ProgramLoadTakesOneTickPerByte : Prop :=
  ∀ (p : List Byte) (useCarry debugLog : Bool) (s s0 : State), s.running = false → p ≠ [] →
    p.length ≤ 65536 → start p useCarry debugLog s = .next s0 →
    ∀ k, k ≤ p.length → ∃ t, run k s0 = .next t ∧
      t.isLoading = decide (k < p.length) ∧ t.running = true ∧
      (∀ a : Word, t.cell a = if a.toNat < k then p.getD a.toNat 0x00#8 else 0x00#8) ∧
      t.a = 0x00#8 ∧ t.x = 0x00#8 ∧ t.y = 0x00#8 ∧ t.z = false ∧ t.c = false ∧ t.pc = 0x0000#16 ∧
      t.useCarry = useCarry ∧ (k = p.length → t.boundary)

/-- From an instruction boundary at a BRK, four ticks end the run, whatever interrupts arrive: the machine is stopped in
InterruptCheck with PC one past the BRK and nothing else of the architectural state changed, it stays so for ever, and
the snapshot the host reads holds exactly A, X, Y, Z, C, PC, the output, the fault log and the cells (R96, R126, R133).
What the snapshot holds is decision D32 of the spec (log entry 18). -/
def Obligations.BrkEndsTheRun : Prop :=
  ∀ s : State, s.Inv → s.boundary → s.cell s.pc = 0x00#8 →
    ∃ t, run 4 s = .next t ∧ t.running = false ∧ t.stage = .interruptCheck ∧ t.pulse = 0 ∧
      t.arch = { s.arch with pc := s.pc + 1 } ∧
      t.snapshot = some
        { a := s.a, x := s.x, y := s.y, z := s.z, c := s.c, pc := s.pc + 1, out := s.out, faults := s.faults,
          cells := s.cells } ∧
      ∀ n, run n t = .next t

/-! ## The invariant -/

/-- The invariant holds after reset. -/
def Obligations.InvariantAtReset : Prop := State.reset.Inv

/-- The invariant holds after every Start that is accepted (R128, R129). -/
def Obligations.StartEstablishesInvariant : Prop :=
  ∀ (p : List Byte) (useCarry debugLog : Bool) (s t : State),
    start p useCarry debugLog s = .next t → t.Inv

/-- Every step keeps the invariant (R32 and the invariants of R21, R22, R26, R27). -/
def Obligations.StepKeepsInvariant : Prop :=
  ∀ s t : State, s.Inv → step s = .next t → t.Inv

/-- From every state that meets the invariant a step answers a next state: no rule reads MDR before its read has
completed, no sub-pulse outside the tables is reached, and no logged fault stops the machine (R45, R105, R109). -/
def Obligations.StepNeverStopsUnderInvariant : Prop :=
  ∀ s : State, s.Inv → ∃ t, step s = .next t

/-- Two canonical memories that read the same at every address are the same list, so that the list stands for the cells of
R26 one to one. The canonical list of non-zero bytes is the model's own representation (log entry 20). -/
def Obligations.EqualMemoriesAreEqualLists : Prop :=
  ∀ m n : List Host.Cell, Memory.wf m → Memory.wf n → (∀ a, Memory.read m a = Memory.read n a) → m = n

/-! ## Whole instructions -/

/-- The tick-level pipeline carries out the instruction-level summary: from an instruction boundary, where the bytes at
PC decode to an instruction other than a string print, exactly `ticksOf` ticks later the architectural state is the
summary's effect, whatever interrupts arrive in between, and the pipeline stands at the start of a Fetch, or, after BRK,
the machine is stopped in InterruptCheck (R71 to R76, R79 to R98, R102, R137). Whether it still runs at that Fetch is
InterruptCheckServesPending's to say. The tick counts rest on decision D4 of the spec (log entry 11) and the fault of an
invalid SYS on its decisions D8 to D10 (log entries 13 and 14). -/
def Obligations.PipelineRefinesInstructionSummary : Prop :=
  ∀ (s : State) (i : Instr) (rest : List Byte), s.Inv → s.boundary → decode s.x s.codeBytes = .ok (i, rest) →
    isStringPrint i s.x = false →
    ∃ t, run (ticksOf i s.x) s = .next t ∧
      t.arch = effect s.useCarry i { s.arch with pc := s.pc + BitVec.ofNat 16 (encode i).length } ∧
      t.pulse = 0 ∧ t.stage = (if i = .brk then .interruptCheck else .fetch) ∧ (i = .brk → t.running = false)

/-- A SYS string print emits exactly the bytes of its string: from an instruction boundary at a SYS with X = 2 or X = 3
whose string of n non-zero bytes, walked by `Next`, ends in a 0x00, the print takes 2n + 6 or 2n + 10 ticks, appends
exactly those bytes to the output, and changes nothing else of the architectural state but PC (R99 to R101, R137). The
cadence is decision D5 of the spec (log entry 12) and the ticks of the operand bytes its decision D4 (log entry 11);
`Next` depends on the OPEN parameters (D6, D7; log entry 6). -/
def Obligations.StringPrintEmitsItsString : Prop :=
  ∀ (s : State) (arg : Option Word) (rest : List Byte) (bs : List Byte), s.Inv → s.boundary →
    decode s.x s.codeBytes = .ok (.sys arg, rest) → isStringPrint (.sys arg) s.x = true →
    stringAt s.cells s.x (arg.getD (s.y.setWidth 16)) bs →
    ∃ t, run (2 * bs.length + (if s.x = 0x02#8 then 6 else 10)) s = .next t ∧
      t.arch = { s.arch with
        pc := s.pc + BitVec.ofNat 16 (encode (.sys arg)).length, out := s.out ++ bs } ∧
      t.stage = .fetch ∧ t.pulse = 0

/-- `STA a` then `LDA a` leaves A as it was and the byte in its cell, provided that a is none of the three bytes of the
LDA and the machine is not stopped in between (R85, R135; the condition is 90_conflicts.md C8). The ten ticks of each are
R137, which rests on decision D4 of the spec (log entry 11). -/
def Obligations.StoreThenLoadReturnsValue : Prop :=
  ∀ (s : State) (a : Word), s.Inv → s.boundary →
    s.codeBytes = encode (.staAbs a) →
    [s.cell (s.pc + 3), s.cell (s.pc + 4), s.cell (s.pc + 5)] = encode (.ldaAbs a) →
    a ≠ s.pc + 3 → a ≠ s.pc + 4 → a ≠ s.pc + 5 →
    (∀ t, run 10 s = .next t → t.running = true) →
    ∃ t, run 20 s = .next t ∧ t.a = s.a ∧ t.cell a = s.a ∧ t.pc = s.pc + 6 ∧ t.z = s.z ∧ t.c = s.c
end

