-- ==== Sys2Proof/Laws/State.lean ====
section
/-! SUPPORT. One lemma per field per named update of the state, each true by unfolding the update once, so that no proof
unfolds a record update again. -/

namespace Sys2Proof.Machine

/-! ## `setCell` -/

@[simp] theorem State.setCell_a (s : State) (w : Word) (b : Byte) : (s.setCell w b).a = s.a := rfl
@[simp] theorem State.setCell_x (s : State) (w : Word) (b : Byte) : (s.setCell w b).x = s.x := rfl
@[simp] theorem State.setCell_y (s : State) (w : Word) (b : Byte) : (s.setCell w b).y = s.y := rfl
@[simp] theorem State.setCell_z (s : State) (w : Word) (b : Byte) : (s.setCell w b).z = s.z := rfl
@[simp] theorem State.setCell_c (s : State) (w : Word) (b : Byte) : (s.setCell w b).c = s.c := rfl
@[simp] theorem State.setCell_pc (s : State) (w : Word) (b : Byte) : (s.setCell w b).pc = s.pc := rfl
@[simp] theorem State.setCell_opcode (s : State) (w : Word) (b : Byte) : (s.setCell w b).opcode = s.opcode := rfl
@[simp] theorem State.setCell_ir (s : State) (w : Word) (b : Byte) : (s.setCell w b).ir = s.ir := rfl
@[simp] theorem State.setCell_operand0 (s : State) (w : Word) (b : Byte) : (s.setCell w b).operand0 = s.operand0 := rfl
@[simp] theorem State.setCell_operand1 (s : State) (w : Word) (b : Byte) : (s.setCell w b).operand1 = s.operand1 := rfl
@[simp] theorem State.setCell_stage (s : State) (w : Word) (b : Byte) : (s.setCell w b).stage = s.stage := rfl
@[simp] theorem State.setCell_pulse (s : State) (w : Word) (b : Byte) : (s.setCell w b).pulse = s.pulse := rfl
@[simp] theorem State.setCell_fetchCount (s : State) (w : Word) (b : Byte) : (s.setCell w b).fetchCount = s.fetchCount := rfl
@[simp] theorem State.setCell_currentFetch (s : State) (w : Word) (b : Byte) : (s.setCell w b).currentFetch = s.currentFetch := rfl
@[simp] theorem State.setCell_writeAddress (s : State) (w : Word) (b : Byte) : (s.setCell w b).writeAddress = s.writeAddress := rfl
@[simp] theorem State.setCell_writeValue (s : State) (w : Word) (b : Byte) : (s.setCell w b).writeValue = s.writeValue := rfl
@[simp] theorem State.setCell_strPtr (s : State) (w : Word) (b : Byte) : (s.setCell w b).strPtr = s.strPtr := rfl
@[simp] theorem State.setCell_pendingInterrupt (s : State) (w : Word) (b : Byte) : (s.setCell w b).pendingInterrupt = s.pendingInterrupt := rfl
@[simp] theorem State.setCell_running (s : State) (w : Word) (b : Byte) : (s.setCell w b).running = s.running := rfl
@[simp] theorem State.setCell_useCarry (s : State) (w : Word) (b : Byte) : (s.setCell w b).useCarry = s.useCarry := rfl
@[simp] theorem State.setCell_debugLog (s : State) (w : Word) (b : Byte) : (s.setCell w b).debugLog = s.debugLog := rfl
@[simp] theorem State.setCell_cells (s : State) (w : Word) (b : Byte) : (s.setCell w b).cells = Memory.write s.cells w.toNat b := rfl
@[simp] theorem State.setCell_mar (s : State) (w : Word) (b : Byte) : (s.setCell w b).mar = s.mar := rfl
@[simp] theorem State.setCell_mdr (s : State) (w : Word) (b : Byte) : (s.setCell w b).mdr = s.mdr := rfl
@[simp] theorem State.setCell_readPending (s : State) (w : Word) (b : Byte) : (s.setCell w b).readPending = s.readPending := rfl
@[simp] theorem State.setCell_writePending (s : State) (w : Word) (b : Byte) : (s.setCell w b).writePending = s.writePending := rfl
@[simp] theorem State.setCell_programQueue (s : State) (w : Word) (b : Byte) : (s.setCell w b).programQueue = s.programQueue := rfl
@[simp] theorem State.setCell_loadAddress (s : State) (w : Word) (b : Byte) : (s.setCell w b).loadAddress = s.loadAddress := rfl
@[simp] theorem State.setCell_isLoading (s : State) (w : Word) (b : Byte) : (s.setCell w b).isLoading = s.isLoading := rfl
@[simp] theorem State.setCell_waiting (s : State) (w : Word) (b : Byte) : (s.setCell w b).waiting = s.waiting := rfl
@[simp] theorem State.setCell_out (s : State) (w : Word) (b : Byte) : (s.setCell w b).out = s.out := rfl
@[simp] theorem State.setCell_faults (s : State) (w : Word) (b : Byte) : (s.setCell w b).faults = s.faults := rfl
@[simp] theorem State.setCell_tickCount (s : State) (w : Word) (b : Byte) : (s.setCell w b).tickCount = s.tickCount := rfl
@[simp] theorem State.setCell_readCompleted (s : State) (w : Word) (b : Byte) : (s.setCell w b).readCompleted = s.readCompleted := rfl
@[simp] theorem State.setCell_arrivals (s : State) (w : Word) (b : Byte) : (s.setCell w b).arrivals = s.arrivals := rfl

/-! ## `triggerRead` -/

@[simp] theorem State.triggerRead_a (s : State) (w : Word) : (s.triggerRead w).a = s.a := rfl
@[simp] theorem State.triggerRead_x (s : State) (w : Word) : (s.triggerRead w).x = s.x := rfl
@[simp] theorem State.triggerRead_y (s : State) (w : Word) : (s.triggerRead w).y = s.y := rfl
@[simp] theorem State.triggerRead_z (s : State) (w : Word) : (s.triggerRead w).z = s.z := rfl
@[simp] theorem State.triggerRead_c (s : State) (w : Word) : (s.triggerRead w).c = s.c := rfl
@[simp] theorem State.triggerRead_pc (s : State) (w : Word) : (s.triggerRead w).pc = s.pc := rfl
@[simp] theorem State.triggerRead_opcode (s : State) (w : Word) : (s.triggerRead w).opcode = s.opcode := rfl
@[simp] theorem State.triggerRead_ir (s : State) (w : Word) : (s.triggerRead w).ir = s.ir := rfl
@[simp] theorem State.triggerRead_operand0 (s : State) (w : Word) : (s.triggerRead w).operand0 = s.operand0 := rfl
@[simp] theorem State.triggerRead_operand1 (s : State) (w : Word) : (s.triggerRead w).operand1 = s.operand1 := rfl
@[simp] theorem State.triggerRead_stage (s : State) (w : Word) : (s.triggerRead w).stage = s.stage := rfl
@[simp] theorem State.triggerRead_pulse (s : State) (w : Word) : (s.triggerRead w).pulse = s.pulse := rfl
@[simp] theorem State.triggerRead_fetchCount (s : State) (w : Word) : (s.triggerRead w).fetchCount = s.fetchCount := rfl
@[simp] theorem State.triggerRead_currentFetch (s : State) (w : Word) : (s.triggerRead w).currentFetch = s.currentFetch := rfl
@[simp] theorem State.triggerRead_writeAddress (s : State) (w : Word) : (s.triggerRead w).writeAddress = s.writeAddress := rfl
@[simp] theorem State.triggerRead_writeValue (s : State) (w : Word) : (s.triggerRead w).writeValue = s.writeValue := rfl
@[simp] theorem State.triggerRead_strPtr (s : State) (w : Word) : (s.triggerRead w).strPtr = s.strPtr := rfl
@[simp] theorem State.triggerRead_pendingInterrupt (s : State) (w : Word) : (s.triggerRead w).pendingInterrupt = s.pendingInterrupt := rfl
@[simp] theorem State.triggerRead_running (s : State) (w : Word) : (s.triggerRead w).running = s.running := rfl
@[simp] theorem State.triggerRead_useCarry (s : State) (w : Word) : (s.triggerRead w).useCarry = s.useCarry := rfl
@[simp] theorem State.triggerRead_debugLog (s : State) (w : Word) : (s.triggerRead w).debugLog = s.debugLog := rfl
@[simp] theorem State.triggerRead_cells (s : State) (w : Word) : (s.triggerRead w).cells = s.cells := rfl
@[simp] theorem State.triggerRead_mar (s : State) (w : Word) : (s.triggerRead w).mar = w := rfl
@[simp] theorem State.triggerRead_mdr (s : State) (w : Word) : (s.triggerRead w).mdr = s.mdr := rfl
@[simp] theorem State.triggerRead_readPending (s : State) (w : Word) : (s.triggerRead w).readPending = true := rfl
@[simp] theorem State.triggerRead_writePending (s : State) (w : Word) : (s.triggerRead w).writePending = s.writePending := rfl
@[simp] theorem State.triggerRead_programQueue (s : State) (w : Word) : (s.triggerRead w).programQueue = s.programQueue := rfl
@[simp] theorem State.triggerRead_loadAddress (s : State) (w : Word) : (s.triggerRead w).loadAddress = s.loadAddress := rfl
@[simp] theorem State.triggerRead_isLoading (s : State) (w : Word) : (s.triggerRead w).isLoading = s.isLoading := rfl
@[simp] theorem State.triggerRead_waiting (s : State) (w : Word) : (s.triggerRead w).waiting = s.waiting := rfl
@[simp] theorem State.triggerRead_out (s : State) (w : Word) : (s.triggerRead w).out = s.out := rfl
@[simp] theorem State.triggerRead_faults (s : State) (w : Word) : (s.triggerRead w).faults = s.faults := rfl
@[simp] theorem State.triggerRead_tickCount (s : State) (w : Word) : (s.triggerRead w).tickCount = s.tickCount := rfl
@[simp] theorem State.triggerRead_readCompleted (s : State) (w : Word) : (s.triggerRead w).readCompleted = s.readCompleted := rfl
@[simp] theorem State.triggerRead_arrivals (s : State) (w : Word) : (s.triggerRead w).arrivals = s.arrivals := rfl

/-! ## `triggerWrite` -/

@[simp] theorem State.triggerWrite_a (s : State) (b : Byte) : (s.triggerWrite b).a = s.a := rfl
@[simp] theorem State.triggerWrite_x (s : State) (b : Byte) : (s.triggerWrite b).x = s.x := rfl
@[simp] theorem State.triggerWrite_y (s : State) (b : Byte) : (s.triggerWrite b).y = s.y := rfl
@[simp] theorem State.triggerWrite_z (s : State) (b : Byte) : (s.triggerWrite b).z = s.z := rfl
@[simp] theorem State.triggerWrite_c (s : State) (b : Byte) : (s.triggerWrite b).c = s.c := rfl
@[simp] theorem State.triggerWrite_pc (s : State) (b : Byte) : (s.triggerWrite b).pc = s.pc := rfl
@[simp] theorem State.triggerWrite_opcode (s : State) (b : Byte) : (s.triggerWrite b).opcode = s.opcode := rfl
@[simp] theorem State.triggerWrite_ir (s : State) (b : Byte) : (s.triggerWrite b).ir = s.ir := rfl
@[simp] theorem State.triggerWrite_operand0 (s : State) (b : Byte) : (s.triggerWrite b).operand0 = s.operand0 := rfl
@[simp] theorem State.triggerWrite_operand1 (s : State) (b : Byte) : (s.triggerWrite b).operand1 = s.operand1 := rfl
@[simp] theorem State.triggerWrite_stage (s : State) (b : Byte) : (s.triggerWrite b).stage = s.stage := rfl
@[simp] theorem State.triggerWrite_pulse (s : State) (b : Byte) : (s.triggerWrite b).pulse = s.pulse := rfl
@[simp] theorem State.triggerWrite_fetchCount (s : State) (b : Byte) : (s.triggerWrite b).fetchCount = s.fetchCount := rfl
@[simp] theorem State.triggerWrite_currentFetch (s : State) (b : Byte) : (s.triggerWrite b).currentFetch = s.currentFetch := rfl
@[simp] theorem State.triggerWrite_writeAddress (s : State) (b : Byte) : (s.triggerWrite b).writeAddress = s.writeAddress := rfl
@[simp] theorem State.triggerWrite_writeValue (s : State) (b : Byte) : (s.triggerWrite b).writeValue = s.writeValue := rfl
@[simp] theorem State.triggerWrite_strPtr (s : State) (b : Byte) : (s.triggerWrite b).strPtr = s.strPtr := rfl
@[simp] theorem State.triggerWrite_pendingInterrupt (s : State) (b : Byte) : (s.triggerWrite b).pendingInterrupt = s.pendingInterrupt := rfl
@[simp] theorem State.triggerWrite_running (s : State) (b : Byte) : (s.triggerWrite b).running = s.running := rfl
@[simp] theorem State.triggerWrite_useCarry (s : State) (b : Byte) : (s.triggerWrite b).useCarry = s.useCarry := rfl
@[simp] theorem State.triggerWrite_debugLog (s : State) (b : Byte) : (s.triggerWrite b).debugLog = s.debugLog := rfl
@[simp] theorem State.triggerWrite_cells (s : State) (b : Byte) : (s.triggerWrite b).cells = s.cells := rfl
@[simp] theorem State.triggerWrite_mar (s : State) (b : Byte) : (s.triggerWrite b).mar = s.mar := rfl
@[simp] theorem State.triggerWrite_mdr (s : State) (b : Byte) : (s.triggerWrite b).mdr = b := rfl
@[simp] theorem State.triggerWrite_readPending (s : State) (b : Byte) : (s.triggerWrite b).readPending = s.readPending := rfl
@[simp] theorem State.triggerWrite_writePending (s : State) (b : Byte) : (s.triggerWrite b).writePending = true := rfl
@[simp] theorem State.triggerWrite_programQueue (s : State) (b : Byte) : (s.triggerWrite b).programQueue = s.programQueue := rfl
@[simp] theorem State.triggerWrite_loadAddress (s : State) (b : Byte) : (s.triggerWrite b).loadAddress = s.loadAddress := rfl
@[simp] theorem State.triggerWrite_isLoading (s : State) (b : Byte) : (s.triggerWrite b).isLoading = s.isLoading := rfl
@[simp] theorem State.triggerWrite_waiting (s : State) (b : Byte) : (s.triggerWrite b).waiting = s.waiting := rfl
@[simp] theorem State.triggerWrite_out (s : State) (b : Byte) : (s.triggerWrite b).out = s.out := rfl
@[simp] theorem State.triggerWrite_faults (s : State) (b : Byte) : (s.triggerWrite b).faults = s.faults := rfl
@[simp] theorem State.triggerWrite_tickCount (s : State) (b : Byte) : (s.triggerWrite b).tickCount = s.tickCount := rfl
@[simp] theorem State.triggerWrite_readCompleted (s : State) (b : Byte) : (s.triggerWrite b).readCompleted = s.readCompleted := rfl
@[simp] theorem State.triggerWrite_arrivals (s : State) (b : Byte) : (s.triggerWrite b).arrivals = s.arrivals := rfl

/-! ## `writeImmediate` -/

@[simp] theorem State.writeImmediate_a (s : State) (w : Word) (b : Byte) : (s.writeImmediate w b).a = s.a := rfl
@[simp] theorem State.writeImmediate_x (s : State) (w : Word) (b : Byte) : (s.writeImmediate w b).x = s.x := rfl
@[simp] theorem State.writeImmediate_y (s : State) (w : Word) (b : Byte) : (s.writeImmediate w b).y = s.y := rfl
@[simp] theorem State.writeImmediate_z (s : State) (w : Word) (b : Byte) : (s.writeImmediate w b).z = s.z := rfl
@[simp] theorem State.writeImmediate_c (s : State) (w : Word) (b : Byte) : (s.writeImmediate w b).c = s.c := rfl
@[simp] theorem State.writeImmediate_pc (s : State) (w : Word) (b : Byte) : (s.writeImmediate w b).pc = s.pc := rfl
@[simp] theorem State.writeImmediate_opcode (s : State) (w : Word) (b : Byte) : (s.writeImmediate w b).opcode = s.opcode := rfl
@[simp] theorem State.writeImmediate_ir (s : State) (w : Word) (b : Byte) : (s.writeImmediate w b).ir = s.ir := rfl
@[simp] theorem State.writeImmediate_operand0 (s : State) (w : Word) (b : Byte) : (s.writeImmediate w b).operand0 = s.operand0 := rfl
@[simp] theorem State.writeImmediate_operand1 (s : State) (w : Word) (b : Byte) : (s.writeImmediate w b).operand1 = s.operand1 := rfl
@[simp] theorem State.writeImmediate_stage (s : State) (w : Word) (b : Byte) : (s.writeImmediate w b).stage = s.stage := rfl
@[simp] theorem State.writeImmediate_pulse (s : State) (w : Word) (b : Byte) : (s.writeImmediate w b).pulse = s.pulse := rfl
@[simp] theorem State.writeImmediate_fetchCount (s : State) (w : Word) (b : Byte) : (s.writeImmediate w b).fetchCount = s.fetchCount := rfl
@[simp] theorem State.writeImmediate_currentFetch (s : State) (w : Word) (b : Byte) : (s.writeImmediate w b).currentFetch = s.currentFetch := rfl
@[simp] theorem State.writeImmediate_writeAddress (s : State) (w : Word) (b : Byte) : (s.writeImmediate w b).writeAddress = s.writeAddress := rfl
@[simp] theorem State.writeImmediate_writeValue (s : State) (w : Word) (b : Byte) : (s.writeImmediate w b).writeValue = s.writeValue := rfl
@[simp] theorem State.writeImmediate_strPtr (s : State) (w : Word) (b : Byte) : (s.writeImmediate w b).strPtr = s.strPtr := rfl
@[simp] theorem State.writeImmediate_pendingInterrupt (s : State) (w : Word) (b : Byte) : (s.writeImmediate w b).pendingInterrupt = s.pendingInterrupt := rfl
@[simp] theorem State.writeImmediate_running (s : State) (w : Word) (b : Byte) : (s.writeImmediate w b).running = s.running := rfl
@[simp] theorem State.writeImmediate_useCarry (s : State) (w : Word) (b : Byte) : (s.writeImmediate w b).useCarry = s.useCarry := rfl
@[simp] theorem State.writeImmediate_debugLog (s : State) (w : Word) (b : Byte) : (s.writeImmediate w b).debugLog = s.debugLog := rfl
@[simp] theorem State.writeImmediate_cells (s : State) (w : Word) (b : Byte) : (s.writeImmediate w b).cells = s.cells := rfl
@[simp] theorem State.writeImmediate_mar (s : State) (w : Word) (b : Byte) : (s.writeImmediate w b).mar = w := rfl
@[simp] theorem State.writeImmediate_mdr (s : State) (w : Word) (b : Byte) : (s.writeImmediate w b).mdr = b := rfl
@[simp] theorem State.writeImmediate_readPending (s : State) (w : Word) (b : Byte) : (s.writeImmediate w b).readPending = s.readPending := rfl
@[simp] theorem State.writeImmediate_writePending (s : State) (w : Word) (b : Byte) : (s.writeImmediate w b).writePending = true := rfl
@[simp] theorem State.writeImmediate_programQueue (s : State) (w : Word) (b : Byte) : (s.writeImmediate w b).programQueue = s.programQueue := rfl
@[simp] theorem State.writeImmediate_loadAddress (s : State) (w : Word) (b : Byte) : (s.writeImmediate w b).loadAddress = s.loadAddress := rfl
@[simp] theorem State.writeImmediate_isLoading (s : State) (w : Word) (b : Byte) : (s.writeImmediate w b).isLoading = s.isLoading := rfl
@[simp] theorem State.writeImmediate_waiting (s : State) (w : Word) (b : Byte) : (s.writeImmediate w b).waiting = s.waiting := rfl
@[simp] theorem State.writeImmediate_out (s : State) (w : Word) (b : Byte) : (s.writeImmediate w b).out = s.out := rfl
@[simp] theorem State.writeImmediate_faults (s : State) (w : Word) (b : Byte) : (s.writeImmediate w b).faults = s.faults := rfl
@[simp] theorem State.writeImmediate_tickCount (s : State) (w : Word) (b : Byte) : (s.writeImmediate w b).tickCount = s.tickCount := rfl
@[simp] theorem State.writeImmediate_readCompleted (s : State) (w : Word) (b : Byte) : (s.writeImmediate w b).readCompleted = s.readCompleted := rfl
@[simp] theorem State.writeImmediate_arrivals (s : State) (w : Word) (b : Byte) : (s.writeImmediate w b).arrivals = s.arrivals := rfl

/-! ## `goto` -/

@[simp] theorem State.goto_a (s : State) (t : Stage) : (s.goto t).a = s.a := rfl
@[simp] theorem State.goto_x (s : State) (t : Stage) : (s.goto t).x = s.x := rfl
@[simp] theorem State.goto_y (s : State) (t : Stage) : (s.goto t).y = s.y := rfl
@[simp] theorem State.goto_z (s : State) (t : Stage) : (s.goto t).z = s.z := rfl
@[simp] theorem State.goto_c (s : State) (t : Stage) : (s.goto t).c = s.c := rfl
@[simp] theorem State.goto_pc (s : State) (t : Stage) : (s.goto t).pc = s.pc := rfl
@[simp] theorem State.goto_opcode (s : State) (t : Stage) : (s.goto t).opcode = s.opcode := rfl
@[simp] theorem State.goto_ir (s : State) (t : Stage) : (s.goto t).ir = s.ir := rfl
@[simp] theorem State.goto_operand0 (s : State) (t : Stage) : (s.goto t).operand0 = s.operand0 := rfl
@[simp] theorem State.goto_operand1 (s : State) (t : Stage) : (s.goto t).operand1 = s.operand1 := rfl
@[simp] theorem State.goto_stage (s : State) (t : Stage) : (s.goto t).stage = t := rfl
@[simp] theorem State.goto_pulse (s : State) (t : Stage) : (s.goto t).pulse = 0 := rfl
@[simp] theorem State.goto_fetchCount (s : State) (t : Stage) : (s.goto t).fetchCount = s.fetchCount := rfl
@[simp] theorem State.goto_currentFetch (s : State) (t : Stage) : (s.goto t).currentFetch = s.currentFetch := rfl
@[simp] theorem State.goto_writeAddress (s : State) (t : Stage) : (s.goto t).writeAddress = s.writeAddress := rfl
@[simp] theorem State.goto_writeValue (s : State) (t : Stage) : (s.goto t).writeValue = s.writeValue := rfl
@[simp] theorem State.goto_strPtr (s : State) (t : Stage) : (s.goto t).strPtr = s.strPtr := rfl
@[simp] theorem State.goto_pendingInterrupt (s : State) (t : Stage) : (s.goto t).pendingInterrupt = s.pendingInterrupt := rfl
@[simp] theorem State.goto_running (s : State) (t : Stage) : (s.goto t).running = s.running := rfl
@[simp] theorem State.goto_useCarry (s : State) (t : Stage) : (s.goto t).useCarry = s.useCarry := rfl
@[simp] theorem State.goto_debugLog (s : State) (t : Stage) : (s.goto t).debugLog = s.debugLog := rfl
@[simp] theorem State.goto_cells (s : State) (t : Stage) : (s.goto t).cells = s.cells := rfl
@[simp] theorem State.goto_mar (s : State) (t : Stage) : (s.goto t).mar = s.mar := rfl
@[simp] theorem State.goto_mdr (s : State) (t : Stage) : (s.goto t).mdr = s.mdr := rfl
@[simp] theorem State.goto_readPending (s : State) (t : Stage) : (s.goto t).readPending = s.readPending := rfl
@[simp] theorem State.goto_writePending (s : State) (t : Stage) : (s.goto t).writePending = s.writePending := rfl
@[simp] theorem State.goto_programQueue (s : State) (t : Stage) : (s.goto t).programQueue = s.programQueue := rfl
@[simp] theorem State.goto_loadAddress (s : State) (t : Stage) : (s.goto t).loadAddress = s.loadAddress := rfl
@[simp] theorem State.goto_isLoading (s : State) (t : Stage) : (s.goto t).isLoading = s.isLoading := rfl
@[simp] theorem State.goto_waiting (s : State) (t : Stage) : (s.goto t).waiting = s.waiting := rfl
@[simp] theorem State.goto_out (s : State) (t : Stage) : (s.goto t).out = s.out := rfl
@[simp] theorem State.goto_faults (s : State) (t : Stage) : (s.goto t).faults = s.faults := rfl
@[simp] theorem State.goto_tickCount (s : State) (t : Stage) : (s.goto t).tickCount = s.tickCount := rfl
@[simp] theorem State.goto_readCompleted (s : State) (t : Stage) : (s.goto t).readCompleted = s.readCompleted := rfl
@[simp] theorem State.goto_arrivals (s : State) (t : Stage) : (s.goto t).arrivals = s.arrivals := rfl

/-! ## `stop` -/

@[simp] theorem State.stop_a (s : State) : (s.stop).a = s.a := rfl
@[simp] theorem State.stop_x (s : State) : (s.stop).x = s.x := rfl
@[simp] theorem State.stop_y (s : State) : (s.stop).y = s.y := rfl
@[simp] theorem State.stop_z (s : State) : (s.stop).z = s.z := rfl
@[simp] theorem State.stop_c (s : State) : (s.stop).c = s.c := rfl
@[simp] theorem State.stop_pc (s : State) : (s.stop).pc = s.pc := rfl
@[simp] theorem State.stop_opcode (s : State) : (s.stop).opcode = s.opcode := rfl
@[simp] theorem State.stop_ir (s : State) : (s.stop).ir = s.ir := rfl
@[simp] theorem State.stop_operand0 (s : State) : (s.stop).operand0 = s.operand0 := rfl
@[simp] theorem State.stop_operand1 (s : State) : (s.stop).operand1 = s.operand1 := rfl
@[simp] theorem State.stop_stage (s : State) : (s.stop).stage = s.stage := rfl
@[simp] theorem State.stop_pulse (s : State) : (s.stop).pulse = s.pulse := rfl
@[simp] theorem State.stop_fetchCount (s : State) : (s.stop).fetchCount = s.fetchCount := rfl
@[simp] theorem State.stop_currentFetch (s : State) : (s.stop).currentFetch = s.currentFetch := rfl
@[simp] theorem State.stop_writeAddress (s : State) : (s.stop).writeAddress = s.writeAddress := rfl
@[simp] theorem State.stop_writeValue (s : State) : (s.stop).writeValue = s.writeValue := rfl
@[simp] theorem State.stop_strPtr (s : State) : (s.stop).strPtr = s.strPtr := rfl
@[simp] theorem State.stop_pendingInterrupt (s : State) : (s.stop).pendingInterrupt = s.pendingInterrupt := rfl
@[simp] theorem State.stop_running (s : State) : (s.stop).running = false := rfl
@[simp] theorem State.stop_useCarry (s : State) : (s.stop).useCarry = s.useCarry := rfl
@[simp] theorem State.stop_debugLog (s : State) : (s.stop).debugLog = s.debugLog := rfl
@[simp] theorem State.stop_cells (s : State) : (s.stop).cells = s.cells := rfl
@[simp] theorem State.stop_mar (s : State) : (s.stop).mar = s.mar := rfl
@[simp] theorem State.stop_mdr (s : State) : (s.stop).mdr = s.mdr := rfl
@[simp] theorem State.stop_readPending (s : State) : (s.stop).readPending = s.readPending := rfl
@[simp] theorem State.stop_writePending (s : State) : (s.stop).writePending = s.writePending := rfl
@[simp] theorem State.stop_programQueue (s : State) : (s.stop).programQueue = s.programQueue := rfl
@[simp] theorem State.stop_loadAddress (s : State) : (s.stop).loadAddress = s.loadAddress := rfl
@[simp] theorem State.stop_isLoading (s : State) : (s.stop).isLoading = s.isLoading := rfl
@[simp] theorem State.stop_waiting (s : State) : (s.stop).waiting = [] := rfl
@[simp] theorem State.stop_out (s : State) : (s.stop).out = s.out := rfl
@[simp] theorem State.stop_faults (s : State) : (s.stop).faults = s.faults := rfl
@[simp] theorem State.stop_tickCount (s : State) : (s.stop).tickCount = s.tickCount := rfl
@[simp] theorem State.stop_readCompleted (s : State) : (s.stop).readCompleted = s.readCompleted := rfl
@[simp] theorem State.stop_arrivals (s : State) : (s.stop).arrivals = s.arrivals := rfl

/-! ## `emit` -/

@[simp] theorem State.emit_a (s : State) (bs : List Byte) : (s.emit bs).a = s.a := rfl
@[simp] theorem State.emit_x (s : State) (bs : List Byte) : (s.emit bs).x = s.x := rfl
@[simp] theorem State.emit_y (s : State) (bs : List Byte) : (s.emit bs).y = s.y := rfl
@[simp] theorem State.emit_z (s : State) (bs : List Byte) : (s.emit bs).z = s.z := rfl
@[simp] theorem State.emit_c (s : State) (bs : List Byte) : (s.emit bs).c = s.c := rfl
@[simp] theorem State.emit_pc (s : State) (bs : List Byte) : (s.emit bs).pc = s.pc := rfl
@[simp] theorem State.emit_opcode (s : State) (bs : List Byte) : (s.emit bs).opcode = s.opcode := rfl
@[simp] theorem State.emit_ir (s : State) (bs : List Byte) : (s.emit bs).ir = s.ir := rfl
@[simp] theorem State.emit_operand0 (s : State) (bs : List Byte) : (s.emit bs).operand0 = s.operand0 := rfl
@[simp] theorem State.emit_operand1 (s : State) (bs : List Byte) : (s.emit bs).operand1 = s.operand1 := rfl
@[simp] theorem State.emit_stage (s : State) (bs : List Byte) : (s.emit bs).stage = s.stage := rfl
@[simp] theorem State.emit_pulse (s : State) (bs : List Byte) : (s.emit bs).pulse = s.pulse := rfl
@[simp] theorem State.emit_fetchCount (s : State) (bs : List Byte) : (s.emit bs).fetchCount = s.fetchCount := rfl
@[simp] theorem State.emit_currentFetch (s : State) (bs : List Byte) : (s.emit bs).currentFetch = s.currentFetch := rfl
@[simp] theorem State.emit_writeAddress (s : State) (bs : List Byte) : (s.emit bs).writeAddress = s.writeAddress := rfl
@[simp] theorem State.emit_writeValue (s : State) (bs : List Byte) : (s.emit bs).writeValue = s.writeValue := rfl
@[simp] theorem State.emit_strPtr (s : State) (bs : List Byte) : (s.emit bs).strPtr = s.strPtr := rfl
@[simp] theorem State.emit_pendingInterrupt (s : State) (bs : List Byte) : (s.emit bs).pendingInterrupt = s.pendingInterrupt := rfl
@[simp] theorem State.emit_running (s : State) (bs : List Byte) : (s.emit bs).running = s.running := rfl
@[simp] theorem State.emit_useCarry (s : State) (bs : List Byte) : (s.emit bs).useCarry = s.useCarry := rfl
@[simp] theorem State.emit_debugLog (s : State) (bs : List Byte) : (s.emit bs).debugLog = s.debugLog := rfl
@[simp] theorem State.emit_cells (s : State) (bs : List Byte) : (s.emit bs).cells = s.cells := rfl
@[simp] theorem State.emit_mar (s : State) (bs : List Byte) : (s.emit bs).mar = s.mar := rfl
@[simp] theorem State.emit_mdr (s : State) (bs : List Byte) : (s.emit bs).mdr = s.mdr := rfl
@[simp] theorem State.emit_readPending (s : State) (bs : List Byte) : (s.emit bs).readPending = s.readPending := rfl
@[simp] theorem State.emit_writePending (s : State) (bs : List Byte) : (s.emit bs).writePending = s.writePending := rfl
@[simp] theorem State.emit_programQueue (s : State) (bs : List Byte) : (s.emit bs).programQueue = s.programQueue := rfl
@[simp] theorem State.emit_loadAddress (s : State) (bs : List Byte) : (s.emit bs).loadAddress = s.loadAddress := rfl
@[simp] theorem State.emit_isLoading (s : State) (bs : List Byte) : (s.emit bs).isLoading = s.isLoading := rfl
@[simp] theorem State.emit_waiting (s : State) (bs : List Byte) : (s.emit bs).waiting = s.waiting := rfl
@[simp] theorem State.emit_out (s : State) (bs : List Byte) : (s.emit bs).out = s.out ++ bs := rfl
@[simp] theorem State.emit_faults (s : State) (bs : List Byte) : (s.emit bs).faults = s.faults := rfl
@[simp] theorem State.emit_tickCount (s : State) (bs : List Byte) : (s.emit bs).tickCount = s.tickCount := rfl
@[simp] theorem State.emit_readCompleted (s : State) (bs : List Byte) : (s.emit bs).readCompleted = s.readCompleted := rfl
@[simp] theorem State.emit_arrivals (s : State) (bs : List Byte) : (s.emit bs).arrivals = s.arrivals := rfl

/-! ## `raise` -/

@[simp] theorem State.raise_a (s : State) (k : FaultKind) (n : Nat) : (s.raise k n).a = s.a := rfl
@[simp] theorem State.raise_x (s : State) (k : FaultKind) (n : Nat) : (s.raise k n).x = s.x := rfl
@[simp] theorem State.raise_y (s : State) (k : FaultKind) (n : Nat) : (s.raise k n).y = s.y := rfl
@[simp] theorem State.raise_z (s : State) (k : FaultKind) (n : Nat) : (s.raise k n).z = s.z := rfl
@[simp] theorem State.raise_c (s : State) (k : FaultKind) (n : Nat) : (s.raise k n).c = s.c := rfl
@[simp] theorem State.raise_pc (s : State) (k : FaultKind) (n : Nat) : (s.raise k n).pc = s.pc := rfl
@[simp] theorem State.raise_opcode (s : State) (k : FaultKind) (n : Nat) : (s.raise k n).opcode = s.opcode := rfl
@[simp] theorem State.raise_ir (s : State) (k : FaultKind) (n : Nat) : (s.raise k n).ir = s.ir := rfl
@[simp] theorem State.raise_operand0 (s : State) (k : FaultKind) (n : Nat) : (s.raise k n).operand0 = s.operand0 := rfl
@[simp] theorem State.raise_operand1 (s : State) (k : FaultKind) (n : Nat) : (s.raise k n).operand1 = s.operand1 := rfl
@[simp] theorem State.raise_stage (s : State) (k : FaultKind) (n : Nat) : (s.raise k n).stage = .fetch := rfl
@[simp] theorem State.raise_pulse (s : State) (k : FaultKind) (n : Nat) : (s.raise k n).pulse = 0 := rfl
@[simp] theorem State.raise_fetchCount (s : State) (k : FaultKind) (n : Nat) : (s.raise k n).fetchCount = 0 := rfl
@[simp] theorem State.raise_currentFetch (s : State) (k : FaultKind) (n : Nat) : (s.raise k n).currentFetch = 0 := rfl
@[simp] theorem State.raise_writeAddress (s : State) (k : FaultKind) (n : Nat) : (s.raise k n).writeAddress = none := rfl
@[simp] theorem State.raise_writeValue (s : State) (k : FaultKind) (n : Nat) : (s.raise k n).writeValue = none := rfl
@[simp] theorem State.raise_strPtr (s : State) (k : FaultKind) (n : Nat) : (s.raise k n).strPtr = s.strPtr := rfl
@[simp] theorem State.raise_pendingInterrupt (s : State) (k : FaultKind) (n : Nat) : (s.raise k n).pendingInterrupt = s.pendingInterrupt := rfl
@[simp] theorem State.raise_running (s : State) (k : FaultKind) (n : Nat) : (s.raise k n).running = s.running := rfl
@[simp] theorem State.raise_useCarry (s : State) (k : FaultKind) (n : Nat) : (s.raise k n).useCarry = s.useCarry := rfl
@[simp] theorem State.raise_debugLog (s : State) (k : FaultKind) (n : Nat) : (s.raise k n).debugLog = s.debugLog := rfl
@[simp] theorem State.raise_cells (s : State) (k : FaultKind) (n : Nat) : (s.raise k n).cells = s.cells := rfl
@[simp] theorem State.raise_mar (s : State) (k : FaultKind) (n : Nat) : (s.raise k n).mar = s.mar := rfl
@[simp] theorem State.raise_mdr (s : State) (k : FaultKind) (n : Nat) : (s.raise k n).mdr = s.mdr := rfl
@[simp] theorem State.raise_readPending (s : State) (k : FaultKind) (n : Nat) : (s.raise k n).readPending = s.readPending := rfl
@[simp] theorem State.raise_writePending (s : State) (k : FaultKind) (n : Nat) : (s.raise k n).writePending = s.writePending := rfl
@[simp] theorem State.raise_programQueue (s : State) (k : FaultKind) (n : Nat) : (s.raise k n).programQueue = s.programQueue := rfl
@[simp] theorem State.raise_loadAddress (s : State) (k : FaultKind) (n : Nat) : (s.raise k n).loadAddress = s.loadAddress := rfl
@[simp] theorem State.raise_isLoading (s : State) (k : FaultKind) (n : Nat) : (s.raise k n).isLoading = s.isLoading := rfl
@[simp] theorem State.raise_waiting (s : State) (k : FaultKind) (n : Nat) : (s.raise k n).waiting = s.waiting := rfl
@[simp] theorem State.raise_out (s : State) (k : FaultKind) (n : Nat) : (s.raise k n).out = s.out := rfl
@[simp] theorem State.raise_faults (s : State) (k : FaultKind) (n : Nat) : (s.raise k n).faults = s.faults ++ [s.report k n] := rfl
@[simp] theorem State.raise_tickCount (s : State) (k : FaultKind) (n : Nat) : (s.raise k n).tickCount = s.tickCount := rfl
@[simp] theorem State.raise_readCompleted (s : State) (k : FaultKind) (n : Nat) : (s.raise k n).readCompleted = s.readCompleted := rfl
@[simp] theorem State.raise_arrivals (s : State) (k : FaultKind) (n : Nat) : (s.raise k n).arrivals = s.arrivals := rfl

/-! ## `fetched` -/

@[simp] theorem State.fetched_a (s : State) (b : Byte) : (s.fetched b).a = s.a := rfl
@[simp] theorem State.fetched_x (s : State) (b : Byte) : (s.fetched b).x = s.x := rfl
@[simp] theorem State.fetched_y (s : State) (b : Byte) : (s.fetched b).y = s.y := rfl
@[simp] theorem State.fetched_z (s : State) (b : Byte) : (s.fetched b).z = s.z := rfl
@[simp] theorem State.fetched_c (s : State) (b : Byte) : (s.fetched b).c = s.c := rfl
@[simp] theorem State.fetched_pc (s : State) (b : Byte) : (s.fetched b).pc = s.pc + 1 := rfl
@[simp] theorem State.fetched_opcode (s : State) (b : Byte) : (s.fetched b).opcode = s.opcode := rfl
@[simp] theorem State.fetched_ir (s : State) (b : Byte) : (s.fetched b).ir = s.ir := rfl
@[simp] theorem State.fetched_operand0 (s : State) (b : Byte) : (s.fetched b).operand0 = s.operand0 := rfl
@[simp] theorem State.fetched_operand1 (s : State) (b : Byte) : (s.fetched b).operand1 = s.operand1 := rfl
@[simp] theorem State.fetched_stage (s : State) (b : Byte) : (s.fetched b).stage = s.stage := rfl
@[simp] theorem State.fetched_pulse (s : State) (b : Byte) : (s.fetched b).pulse = s.pulse := rfl
@[simp] theorem State.fetched_fetchCount (s : State) (b : Byte) : (s.fetched b).fetchCount = s.fetchCount := rfl
@[simp] theorem State.fetched_currentFetch (s : State) (b : Byte) : (s.fetched b).currentFetch = s.currentFetch := rfl
@[simp] theorem State.fetched_writeAddress (s : State) (b : Byte) : (s.fetched b).writeAddress = s.writeAddress := rfl
@[simp] theorem State.fetched_writeValue (s : State) (b : Byte) : (s.fetched b).writeValue = s.writeValue := rfl
@[simp] theorem State.fetched_strPtr (s : State) (b : Byte) : (s.fetched b).strPtr = s.strPtr := rfl
@[simp] theorem State.fetched_pendingInterrupt (s : State) (b : Byte) : (s.fetched b).pendingInterrupt = s.pendingInterrupt := rfl
@[simp] theorem State.fetched_running (s : State) (b : Byte) : (s.fetched b).running = s.running := rfl
@[simp] theorem State.fetched_useCarry (s : State) (b : Byte) : (s.fetched b).useCarry = s.useCarry := rfl
@[simp] theorem State.fetched_debugLog (s : State) (b : Byte) : (s.fetched b).debugLog = s.debugLog := rfl
@[simp] theorem State.fetched_cells (s : State) (b : Byte) : (s.fetched b).cells = s.cells := rfl
@[simp] theorem State.fetched_mar (s : State) (b : Byte) : (s.fetched b).mar = s.pc := rfl
@[simp] theorem State.fetched_mdr (s : State) (b : Byte) : (s.fetched b).mdr = b := rfl
@[simp] theorem State.fetched_readPending (s : State) (b : Byte) : (s.fetched b).readPending = s.readPending := rfl
@[simp] theorem State.fetched_writePending (s : State) (b : Byte) : (s.fetched b).writePending = s.writePending := rfl
@[simp] theorem State.fetched_programQueue (s : State) (b : Byte) : (s.fetched b).programQueue = s.programQueue := rfl
@[simp] theorem State.fetched_loadAddress (s : State) (b : Byte) : (s.fetched b).loadAddress = s.loadAddress := rfl
@[simp] theorem State.fetched_isLoading (s : State) (b : Byte) : (s.fetched b).isLoading = s.isLoading := rfl
@[simp] theorem State.fetched_waiting (s : State) (b : Byte) : (s.fetched b).waiting = s.waiting := rfl
@[simp] theorem State.fetched_out (s : State) (b : Byte) : (s.fetched b).out = s.out := rfl
@[simp] theorem State.fetched_faults (s : State) (b : Byte) : (s.fetched b).faults = s.faults := rfl
@[simp] theorem State.fetched_tickCount (s : State) (b : Byte) : (s.fetched b).tickCount = s.tickCount := rfl
@[simp] theorem State.fetched_readCompleted (s : State) (b : Byte) : (s.fetched b).readCompleted = s.readCompleted := rfl
@[simp] theorem State.fetched_arrivals (s : State) (b : Byte) : (s.fetched b).arrivals = s.arrivals := rfl

/-! ## `clockTick` -/

@[simp] theorem State.clockTick_a (s : State) : (s.clockTick).a = s.a := rfl
@[simp] theorem State.clockTick_x (s : State) : (s.clockTick).x = s.x := rfl
@[simp] theorem State.clockTick_y (s : State) : (s.clockTick).y = s.y := rfl
@[simp] theorem State.clockTick_z (s : State) : (s.clockTick).z = s.z := rfl
@[simp] theorem State.clockTick_c (s : State) : (s.clockTick).c = s.c := rfl
@[simp] theorem State.clockTick_pc (s : State) : (s.clockTick).pc = s.pc := rfl
@[simp] theorem State.clockTick_opcode (s : State) : (s.clockTick).opcode = s.opcode := rfl
@[simp] theorem State.clockTick_ir (s : State) : (s.clockTick).ir = s.ir := rfl
@[simp] theorem State.clockTick_operand0 (s : State) : (s.clockTick).operand0 = s.operand0 := rfl
@[simp] theorem State.clockTick_operand1 (s : State) : (s.clockTick).operand1 = s.operand1 := rfl
@[simp] theorem State.clockTick_stage (s : State) : (s.clockTick).stage = s.stage := rfl
@[simp] theorem State.clockTick_pulse (s : State) : (s.clockTick).pulse = s.pulse := rfl
@[simp] theorem State.clockTick_fetchCount (s : State) : (s.clockTick).fetchCount = s.fetchCount := rfl
@[simp] theorem State.clockTick_currentFetch (s : State) : (s.clockTick).currentFetch = s.currentFetch := rfl
@[simp] theorem State.clockTick_writeAddress (s : State) : (s.clockTick).writeAddress = s.writeAddress := rfl
@[simp] theorem State.clockTick_writeValue (s : State) : (s.clockTick).writeValue = s.writeValue := rfl
@[simp] theorem State.clockTick_strPtr (s : State) : (s.clockTick).strPtr = s.strPtr := rfl
@[simp] theorem State.clockTick_pendingInterrupt (s : State) : (s.clockTick).pendingInterrupt = s.pendingInterrupt := rfl
@[simp] theorem State.clockTick_running (s : State) : (s.clockTick).running = s.running := rfl
@[simp] theorem State.clockTick_useCarry (s : State) : (s.clockTick).useCarry = s.useCarry := rfl
@[simp] theorem State.clockTick_debugLog (s : State) : (s.clockTick).debugLog = s.debugLog := rfl
@[simp] theorem State.clockTick_cells (s : State) : (s.clockTick).cells = s.cells := rfl
@[simp] theorem State.clockTick_mar (s : State) : (s.clockTick).mar = s.mar := rfl
@[simp] theorem State.clockTick_mdr (s : State) : (s.clockTick).mdr = s.mdr := rfl
@[simp] theorem State.clockTick_readPending (s : State) : (s.clockTick).readPending = s.readPending := rfl
@[simp] theorem State.clockTick_writePending (s : State) : (s.clockTick).writePending = s.writePending := rfl
@[simp] theorem State.clockTick_programQueue (s : State) : (s.clockTick).programQueue = s.programQueue := rfl
@[simp] theorem State.clockTick_loadAddress (s : State) : (s.clockTick).loadAddress = s.loadAddress := rfl
@[simp] theorem State.clockTick_isLoading (s : State) : (s.clockTick).isLoading = s.isLoading := rfl
@[simp] theorem State.clockTick_waiting (s : State) : (s.clockTick).waiting = s.waiting := rfl
@[simp] theorem State.clockTick_out (s : State) : (s.clockTick).out = s.out := rfl
@[simp] theorem State.clockTick_faults (s : State) : (s.clockTick).faults = s.faults := rfl
@[simp] theorem State.clockTick_tickCount (s : State) : (s.clockTick).tickCount = s.tickCount + 1 := rfl
@[simp] theorem State.clockTick_readCompleted (s : State) : (s.clockTick).readCompleted = s.readCompleted := rfl
@[simp] theorem State.clockTick_arrivals (s : State) : (s.clockTick).arrivals = s.arrivals := rfl

/-! ## `acceptArrivals` -/

@[simp] theorem State.acceptArrivals_a (s : State) : (s.acceptArrivals).a = s.a := rfl
@[simp] theorem State.acceptArrivals_x (s : State) : (s.acceptArrivals).x = s.x := rfl
@[simp] theorem State.acceptArrivals_y (s : State) : (s.acceptArrivals).y = s.y := rfl
@[simp] theorem State.acceptArrivals_z (s : State) : (s.acceptArrivals).z = s.z := rfl
@[simp] theorem State.acceptArrivals_c (s : State) : (s.acceptArrivals).c = s.c := rfl
@[simp] theorem State.acceptArrivals_pc (s : State) : (s.acceptArrivals).pc = s.pc := rfl
@[simp] theorem State.acceptArrivals_opcode (s : State) : (s.acceptArrivals).opcode = s.opcode := rfl
@[simp] theorem State.acceptArrivals_ir (s : State) : (s.acceptArrivals).ir = s.ir := rfl
@[simp] theorem State.acceptArrivals_operand0 (s : State) : (s.acceptArrivals).operand0 = s.operand0 := rfl
@[simp] theorem State.acceptArrivals_operand1 (s : State) : (s.acceptArrivals).operand1 = s.operand1 := rfl
@[simp] theorem State.acceptArrivals_stage (s : State) : (s.acceptArrivals).stage = s.stage := rfl
@[simp] theorem State.acceptArrivals_pulse (s : State) : (s.acceptArrivals).pulse = s.pulse := rfl
@[simp] theorem State.acceptArrivals_fetchCount (s : State) : (s.acceptArrivals).fetchCount = s.fetchCount := rfl
@[simp] theorem State.acceptArrivals_currentFetch (s : State) : (s.acceptArrivals).currentFetch = s.currentFetch := rfl
@[simp] theorem State.acceptArrivals_writeAddress (s : State) : (s.acceptArrivals).writeAddress = s.writeAddress := rfl
@[simp] theorem State.acceptArrivals_writeValue (s : State) : (s.acceptArrivals).writeValue = s.writeValue := rfl
@[simp] theorem State.acceptArrivals_strPtr (s : State) : (s.acceptArrivals).strPtr = s.strPtr := rfl
@[simp] theorem State.acceptArrivals_pendingInterrupt (s : State) : (s.acceptArrivals).pendingInterrupt = s.pendingInterrupt := rfl
@[simp] theorem State.acceptArrivals_running (s : State) : (s.acceptArrivals).running = s.running := rfl
@[simp] theorem State.acceptArrivals_useCarry (s : State) : (s.acceptArrivals).useCarry = s.useCarry := rfl
@[simp] theorem State.acceptArrivals_debugLog (s : State) : (s.acceptArrivals).debugLog = s.debugLog := rfl
@[simp] theorem State.acceptArrivals_cells (s : State) : (s.acceptArrivals).cells = s.cells := rfl
@[simp] theorem State.acceptArrivals_mar (s : State) : (s.acceptArrivals).mar = s.mar := rfl
@[simp] theorem State.acceptArrivals_mdr (s : State) : (s.acceptArrivals).mdr = s.mdr := rfl
@[simp] theorem State.acceptArrivals_readPending (s : State) : (s.acceptArrivals).readPending = s.readPending := rfl
@[simp] theorem State.acceptArrivals_writePending (s : State) : (s.acceptArrivals).writePending = s.writePending := rfl
@[simp] theorem State.acceptArrivals_programQueue (s : State) : (s.acceptArrivals).programQueue = s.programQueue := rfl
@[simp] theorem State.acceptArrivals_loadAddress (s : State) : (s.acceptArrivals).loadAddress = s.loadAddress := rfl
@[simp] theorem State.acceptArrivals_isLoading (s : State) : (s.acceptArrivals).isLoading = s.isLoading := rfl
@[simp] theorem State.acceptArrivals_waiting (s : State) : (s.acceptArrivals).waiting = s.waiting ++ s.arrivals.headD [] := rfl
@[simp] theorem State.acceptArrivals_out (s : State) : (s.acceptArrivals).out = s.out := rfl
@[simp] theorem State.acceptArrivals_faults (s : State) : (s.acceptArrivals).faults = s.faults := rfl
@[simp] theorem State.acceptArrivals_tickCount (s : State) : (s.acceptArrivals).tickCount = s.tickCount := rfl
@[simp] theorem State.acceptArrivals_readCompleted (s : State) : (s.acceptArrivals).readCompleted = s.readCompleted := rfl
@[simp] theorem State.acceptArrivals_arrivals (s : State) : (s.acceptArrivals).arrivals = s.arrivals.tail := rfl

/-! ## `icTick` -/

@[simp] theorem State.icTick_a (s : State) : (s.icTick).a = s.a := rfl
@[simp] theorem State.icTick_x (s : State) : (s.icTick).x = s.x := rfl
@[simp] theorem State.icTick_y (s : State) : (s.icTick).y = s.y := rfl
@[simp] theorem State.icTick_z (s : State) : (s.icTick).z = s.z := rfl
@[simp] theorem State.icTick_c (s : State) : (s.icTick).c = s.c := rfl
@[simp] theorem State.icTick_pc (s : State) : (s.icTick).pc = s.pc := rfl
@[simp] theorem State.icTick_opcode (s : State) : (s.icTick).opcode = s.opcode := rfl
@[simp] theorem State.icTick_ir (s : State) : (s.icTick).ir = s.ir := rfl
@[simp] theorem State.icTick_operand0 (s : State) : (s.icTick).operand0 = s.operand0 := rfl
@[simp] theorem State.icTick_operand1 (s : State) : (s.icTick).operand1 = s.operand1 := rfl
@[simp] theorem State.icTick_stage (s : State) : (s.icTick).stage = s.stage := rfl
@[simp] theorem State.icTick_pulse (s : State) : (s.icTick).pulse = s.pulse := rfl
@[simp] theorem State.icTick_fetchCount (s : State) : (s.icTick).fetchCount = s.fetchCount := rfl
@[simp] theorem State.icTick_currentFetch (s : State) : (s.icTick).currentFetch = s.currentFetch := rfl
@[simp] theorem State.icTick_writeAddress (s : State) : (s.icTick).writeAddress = s.writeAddress := rfl
@[simp] theorem State.icTick_writeValue (s : State) : (s.icTick).writeValue = s.writeValue := rfl
@[simp] theorem State.icTick_strPtr (s : State) : (s.icTick).strPtr = s.strPtr := rfl
@[simp] theorem State.icTick_pendingInterrupt (s : State) : (s.icTick).pendingInterrupt = (winner s.waiting).or s.pendingInterrupt := rfl
@[simp] theorem State.icTick_running (s : State) : (s.icTick).running = s.running := rfl
@[simp] theorem State.icTick_useCarry (s : State) : (s.icTick).useCarry = s.useCarry := rfl
@[simp] theorem State.icTick_debugLog (s : State) : (s.icTick).debugLog = s.debugLog := rfl
@[simp] theorem State.icTick_cells (s : State) : (s.icTick).cells = s.cells := rfl
@[simp] theorem State.icTick_mar (s : State) : (s.icTick).mar = s.mar := rfl
@[simp] theorem State.icTick_mdr (s : State) : (s.icTick).mdr = s.mdr := rfl
@[simp] theorem State.icTick_readPending (s : State) : (s.icTick).readPending = s.readPending := rfl
@[simp] theorem State.icTick_writePending (s : State) : (s.icTick).writePending = s.writePending := rfl
@[simp] theorem State.icTick_programQueue (s : State) : (s.icTick).programQueue = s.programQueue := rfl
@[simp] theorem State.icTick_loadAddress (s : State) : (s.icTick).loadAddress = s.loadAddress := rfl
@[simp] theorem State.icTick_isLoading (s : State) : (s.icTick).isLoading = s.isLoading := rfl
@[simp] theorem State.icTick_waiting (s : State) : (s.icTick).waiting = [] := rfl
@[simp] theorem State.icTick_out (s : State) : (s.icTick).out = s.out := rfl
@[simp] theorem State.icTick_faults (s : State) : (s.icTick).faults = s.faults := rfl
@[simp] theorem State.icTick_tickCount (s : State) : (s.icTick).tickCount = s.tickCount := rfl
@[simp] theorem State.icTick_readCompleted (s : State) : (s.icTick).readCompleted = s.readCompleted := rfl
@[simp] theorem State.icTick_arrivals (s : State) : (s.icTick).arrivals = s.arrivals := rfl

/-! ## `nextPulse` -/

@[simp] theorem State.nextPulse_a (s : State) : (s.nextPulse).a = s.a := rfl
@[simp] theorem State.nextPulse_x (s : State) : (s.nextPulse).x = s.x := rfl
@[simp] theorem State.nextPulse_y (s : State) : (s.nextPulse).y = s.y := rfl
@[simp] theorem State.nextPulse_z (s : State) : (s.nextPulse).z = s.z := rfl
@[simp] theorem State.nextPulse_c (s : State) : (s.nextPulse).c = s.c := rfl
@[simp] theorem State.nextPulse_pc (s : State) : (s.nextPulse).pc = s.pc := rfl
@[simp] theorem State.nextPulse_opcode (s : State) : (s.nextPulse).opcode = s.opcode := rfl
@[simp] theorem State.nextPulse_ir (s : State) : (s.nextPulse).ir = s.ir := rfl
@[simp] theorem State.nextPulse_operand0 (s : State) : (s.nextPulse).operand0 = s.operand0 := rfl
@[simp] theorem State.nextPulse_operand1 (s : State) : (s.nextPulse).operand1 = s.operand1 := rfl
@[simp] theorem State.nextPulse_stage (s : State) : (s.nextPulse).stage = s.stage := rfl
@[simp] theorem State.nextPulse_pulse (s : State) : (s.nextPulse).pulse = s.pulse + 1 := rfl
@[simp] theorem State.nextPulse_fetchCount (s : State) : (s.nextPulse).fetchCount = s.fetchCount := rfl
@[simp] theorem State.nextPulse_currentFetch (s : State) : (s.nextPulse).currentFetch = s.currentFetch := rfl
@[simp] theorem State.nextPulse_writeAddress (s : State) : (s.nextPulse).writeAddress = s.writeAddress := rfl
@[simp] theorem State.nextPulse_writeValue (s : State) : (s.nextPulse).writeValue = s.writeValue := rfl
@[simp] theorem State.nextPulse_strPtr (s : State) : (s.nextPulse).strPtr = s.strPtr := rfl
@[simp] theorem State.nextPulse_pendingInterrupt (s : State) : (s.nextPulse).pendingInterrupt = s.pendingInterrupt := rfl
@[simp] theorem State.nextPulse_running (s : State) : (s.nextPulse).running = s.running := rfl
@[simp] theorem State.nextPulse_useCarry (s : State) : (s.nextPulse).useCarry = s.useCarry := rfl
@[simp] theorem State.nextPulse_debugLog (s : State) : (s.nextPulse).debugLog = s.debugLog := rfl
@[simp] theorem State.nextPulse_cells (s : State) : (s.nextPulse).cells = s.cells := rfl
@[simp] theorem State.nextPulse_mar (s : State) : (s.nextPulse).mar = s.mar := rfl
@[simp] theorem State.nextPulse_mdr (s : State) : (s.nextPulse).mdr = s.mdr := rfl
@[simp] theorem State.nextPulse_readPending (s : State) : (s.nextPulse).readPending = s.readPending := rfl
@[simp] theorem State.nextPulse_writePending (s : State) : (s.nextPulse).writePending = s.writePending := rfl
@[simp] theorem State.nextPulse_programQueue (s : State) : (s.nextPulse).programQueue = s.programQueue := rfl
@[simp] theorem State.nextPulse_loadAddress (s : State) : (s.nextPulse).loadAddress = s.loadAddress := rfl
@[simp] theorem State.nextPulse_isLoading (s : State) : (s.nextPulse).isLoading = s.isLoading := rfl
@[simp] theorem State.nextPulse_waiting (s : State) : (s.nextPulse).waiting = s.waiting := rfl
@[simp] theorem State.nextPulse_out (s : State) : (s.nextPulse).out = s.out := rfl
@[simp] theorem State.nextPulse_faults (s : State) : (s.nextPulse).faults = s.faults := rfl
@[simp] theorem State.nextPulse_tickCount (s : State) : (s.nextPulse).tickCount = s.tickCount := rfl
@[simp] theorem State.nextPulse_readCompleted (s : State) : (s.nextPulse).readCompleted = s.readCompleted := rfl
@[simp] theorem State.nextPulse_arrivals (s : State) : (s.nextPulse).arrivals = s.arrivals := rfl

/-! ## `clearDeferred` -/

@[simp] theorem State.clearDeferred_a (s : State) : (s.clearDeferred).a = s.a := rfl
@[simp] theorem State.clearDeferred_x (s : State) : (s.clearDeferred).x = s.x := rfl
@[simp] theorem State.clearDeferred_y (s : State) : (s.clearDeferred).y = s.y := rfl
@[simp] theorem State.clearDeferred_z (s : State) : (s.clearDeferred).z = s.z := rfl
@[simp] theorem State.clearDeferred_c (s : State) : (s.clearDeferred).c = s.c := rfl
@[simp] theorem State.clearDeferred_pc (s : State) : (s.clearDeferred).pc = s.pc := rfl
@[simp] theorem State.clearDeferred_opcode (s : State) : (s.clearDeferred).opcode = s.opcode := rfl
@[simp] theorem State.clearDeferred_ir (s : State) : (s.clearDeferred).ir = s.ir := rfl
@[simp] theorem State.clearDeferred_operand0 (s : State) : (s.clearDeferred).operand0 = s.operand0 := rfl
@[simp] theorem State.clearDeferred_operand1 (s : State) : (s.clearDeferred).operand1 = s.operand1 := rfl
@[simp] theorem State.clearDeferred_stage (s : State) : (s.clearDeferred).stage = s.stage := rfl
@[simp] theorem State.clearDeferred_pulse (s : State) : (s.clearDeferred).pulse = s.pulse := rfl
@[simp] theorem State.clearDeferred_fetchCount (s : State) : (s.clearDeferred).fetchCount = s.fetchCount := rfl
@[simp] theorem State.clearDeferred_currentFetch (s : State) : (s.clearDeferred).currentFetch = s.currentFetch := rfl
@[simp] theorem State.clearDeferred_writeAddress (s : State) : (s.clearDeferred).writeAddress = none := rfl
@[simp] theorem State.clearDeferred_writeValue (s : State) : (s.clearDeferred).writeValue = none := rfl
@[simp] theorem State.clearDeferred_strPtr (s : State) : (s.clearDeferred).strPtr = s.strPtr := rfl
@[simp] theorem State.clearDeferred_pendingInterrupt (s : State) : (s.clearDeferred).pendingInterrupt = s.pendingInterrupt := rfl
@[simp] theorem State.clearDeferred_running (s : State) : (s.clearDeferred).running = s.running := rfl
@[simp] theorem State.clearDeferred_useCarry (s : State) : (s.clearDeferred).useCarry = s.useCarry := rfl
@[simp] theorem State.clearDeferred_debugLog (s : State) : (s.clearDeferred).debugLog = s.debugLog := rfl
@[simp] theorem State.clearDeferred_cells (s : State) : (s.clearDeferred).cells = s.cells := rfl
@[simp] theorem State.clearDeferred_mar (s : State) : (s.clearDeferred).mar = s.mar := rfl
@[simp] theorem State.clearDeferred_mdr (s : State) : (s.clearDeferred).mdr = s.mdr := rfl
@[simp] theorem State.clearDeferred_readPending (s : State) : (s.clearDeferred).readPending = s.readPending := rfl
@[simp] theorem State.clearDeferred_writePending (s : State) : (s.clearDeferred).writePending = s.writePending := rfl
@[simp] theorem State.clearDeferred_programQueue (s : State) : (s.clearDeferred).programQueue = s.programQueue := rfl
@[simp] theorem State.clearDeferred_loadAddress (s : State) : (s.clearDeferred).loadAddress = s.loadAddress := rfl
@[simp] theorem State.clearDeferred_isLoading (s : State) : (s.clearDeferred).isLoading = s.isLoading := rfl
@[simp] theorem State.clearDeferred_waiting (s : State) : (s.clearDeferred).waiting = s.waiting := rfl
@[simp] theorem State.clearDeferred_out (s : State) : (s.clearDeferred).out = s.out := rfl
@[simp] theorem State.clearDeferred_faults (s : State) : (s.clearDeferred).faults = s.faults := rfl
@[simp] theorem State.clearDeferred_tickCount (s : State) : (s.clearDeferred).tickCount = s.tickCount := rfl
@[simp] theorem State.clearDeferred_readCompleted (s : State) : (s.clearDeferred).readCompleted = s.readCompleted := rfl
@[simp] theorem State.clearDeferred_arrivals (s : State) : (s.clearDeferred).arrivals = s.arrivals := rfl

/-! ## `captureOpcode` -/

@[simp] theorem State.captureOpcode_a (s : State) (b : Byte) : (s.captureOpcode b).a = s.a := rfl
@[simp] theorem State.captureOpcode_x (s : State) (b : Byte) : (s.captureOpcode b).x = s.x := rfl
@[simp] theorem State.captureOpcode_y (s : State) (b : Byte) : (s.captureOpcode b).y = s.y := rfl
@[simp] theorem State.captureOpcode_z (s : State) (b : Byte) : (s.captureOpcode b).z = s.z := rfl
@[simp] theorem State.captureOpcode_c (s : State) (b : Byte) : (s.captureOpcode b).c = s.c := rfl
@[simp] theorem State.captureOpcode_pc (s : State) (b : Byte) : (s.captureOpcode b).pc = s.pc + 1 := rfl
@[simp] theorem State.captureOpcode_opcode (s : State) (b : Byte) : (s.captureOpcode b).opcode = b := rfl
@[simp] theorem State.captureOpcode_ir (s : State) (b : Byte) : (s.captureOpcode b).ir = s.ir := rfl
@[simp] theorem State.captureOpcode_operand0 (s : State) (b : Byte) : (s.captureOpcode b).operand0 = s.operand0 := rfl
@[simp] theorem State.captureOpcode_operand1 (s : State) (b : Byte) : (s.captureOpcode b).operand1 = s.operand1 := rfl
@[simp] theorem State.captureOpcode_stage (s : State) (b : Byte) : (s.captureOpcode b).stage = s.stage := rfl
@[simp] theorem State.captureOpcode_pulse (s : State) (b : Byte) : (s.captureOpcode b).pulse = s.pulse := rfl
@[simp] theorem State.captureOpcode_fetchCount (s : State) (b : Byte) : (s.captureOpcode b).fetchCount = s.fetchCount := rfl
@[simp] theorem State.captureOpcode_currentFetch (s : State) (b : Byte) : (s.captureOpcode b).currentFetch = s.currentFetch := rfl
@[simp] theorem State.captureOpcode_writeAddress (s : State) (b : Byte) : (s.captureOpcode b).writeAddress = s.writeAddress := rfl
@[simp] theorem State.captureOpcode_writeValue (s : State) (b : Byte) : (s.captureOpcode b).writeValue = s.writeValue := rfl
@[simp] theorem State.captureOpcode_strPtr (s : State) (b : Byte) : (s.captureOpcode b).strPtr = s.strPtr := rfl
@[simp] theorem State.captureOpcode_pendingInterrupt (s : State) (b : Byte) : (s.captureOpcode b).pendingInterrupt = s.pendingInterrupt := rfl
@[simp] theorem State.captureOpcode_running (s : State) (b : Byte) : (s.captureOpcode b).running = s.running := rfl
@[simp] theorem State.captureOpcode_useCarry (s : State) (b : Byte) : (s.captureOpcode b).useCarry = s.useCarry := rfl
@[simp] theorem State.captureOpcode_debugLog (s : State) (b : Byte) : (s.captureOpcode b).debugLog = s.debugLog := rfl
@[simp] theorem State.captureOpcode_cells (s : State) (b : Byte) : (s.captureOpcode b).cells = s.cells := rfl
@[simp] theorem State.captureOpcode_mar (s : State) (b : Byte) : (s.captureOpcode b).mar = s.mar := rfl
@[simp] theorem State.captureOpcode_mdr (s : State) (b : Byte) : (s.captureOpcode b).mdr = s.mdr := rfl
@[simp] theorem State.captureOpcode_readPending (s : State) (b : Byte) : (s.captureOpcode b).readPending = s.readPending := rfl
@[simp] theorem State.captureOpcode_writePending (s : State) (b : Byte) : (s.captureOpcode b).writePending = s.writePending := rfl
@[simp] theorem State.captureOpcode_programQueue (s : State) (b : Byte) : (s.captureOpcode b).programQueue = s.programQueue := rfl
@[simp] theorem State.captureOpcode_loadAddress (s : State) (b : Byte) : (s.captureOpcode b).loadAddress = s.loadAddress := rfl
@[simp] theorem State.captureOpcode_isLoading (s : State) (b : Byte) : (s.captureOpcode b).isLoading = s.isLoading := rfl
@[simp] theorem State.captureOpcode_waiting (s : State) (b : Byte) : (s.captureOpcode b).waiting = s.waiting := rfl
@[simp] theorem State.captureOpcode_out (s : State) (b : Byte) : (s.captureOpcode b).out = s.out := rfl
@[simp] theorem State.captureOpcode_faults (s : State) (b : Byte) : (s.captureOpcode b).faults = s.faults := rfl
@[simp] theorem State.captureOpcode_tickCount (s : State) (b : Byte) : (s.captureOpcode b).tickCount = s.tickCount := rfl
@[simp] theorem State.captureOpcode_readCompleted (s : State) (b : Byte) : (s.captureOpcode b).readCompleted = s.readCompleted := rfl
@[simp] theorem State.captureOpcode_arrivals (s : State) (b : Byte) : (s.captureOpcode b).arrivals = s.arrivals := rfl

/-! ## `decoded` -/

@[simp] theorem State.decoded_a (s : State) (row : DecodeRow) : (s.decoded row).a = s.a := rfl
@[simp] theorem State.decoded_x (s : State) (row : DecodeRow) : (s.decoded row).x = s.x := rfl
@[simp] theorem State.decoded_y (s : State) (row : DecodeRow) : (s.decoded row).y = s.y := rfl
@[simp] theorem State.decoded_z (s : State) (row : DecodeRow) : (s.decoded row).z = s.z := rfl
@[simp] theorem State.decoded_c (s : State) (row : DecodeRow) : (s.decoded row).c = s.c := rfl
@[simp] theorem State.decoded_pc (s : State) (row : DecodeRow) : (s.decoded row).pc = s.pc := rfl
@[simp] theorem State.decoded_opcode (s : State) (row : DecodeRow) : (s.decoded row).opcode = s.opcode := rfl
@[simp] theorem State.decoded_ir (s : State) (row : DecodeRow) : (s.decoded row).ir = row.tag := rfl
@[simp] theorem State.decoded_operand0 (s : State) (row : DecodeRow) : (s.decoded row).operand0 = s.operand0 := rfl
@[simp] theorem State.decoded_operand1 (s : State) (row : DecodeRow) : (s.decoded row).operand1 = s.operand1 := rfl
@[simp] theorem State.decoded_stage (s : State) (row : DecodeRow) : (s.decoded row).stage = s.stage := rfl
@[simp] theorem State.decoded_pulse (s : State) (row : DecodeRow) : (s.decoded row).pulse = s.pulse := rfl
@[simp] theorem State.decoded_fetchCount (s : State) (row : DecodeRow) : (s.decoded row).fetchCount = operandBytes row.format s.x := rfl
@[simp] theorem State.decoded_currentFetch (s : State) (row : DecodeRow) : (s.decoded row).currentFetch = 0 := rfl
@[simp] theorem State.decoded_writeAddress (s : State) (row : DecodeRow) : (s.decoded row).writeAddress = s.writeAddress := rfl
@[simp] theorem State.decoded_writeValue (s : State) (row : DecodeRow) : (s.decoded row).writeValue = s.writeValue := rfl
@[simp] theorem State.decoded_strPtr (s : State) (row : DecodeRow) : (s.decoded row).strPtr = s.strPtr := rfl
@[simp] theorem State.decoded_pendingInterrupt (s : State) (row : DecodeRow) : (s.decoded row).pendingInterrupt = s.pendingInterrupt := rfl
@[simp] theorem State.decoded_running (s : State) (row : DecodeRow) : (s.decoded row).running = s.running := rfl
@[simp] theorem State.decoded_useCarry (s : State) (row : DecodeRow) : (s.decoded row).useCarry = s.useCarry := rfl
@[simp] theorem State.decoded_debugLog (s : State) (row : DecodeRow) : (s.decoded row).debugLog = s.debugLog := rfl
@[simp] theorem State.decoded_cells (s : State) (row : DecodeRow) : (s.decoded row).cells = s.cells := rfl
@[simp] theorem State.decoded_mar (s : State) (row : DecodeRow) : (s.decoded row).mar = s.mar := rfl
@[simp] theorem State.decoded_mdr (s : State) (row : DecodeRow) : (s.decoded row).mdr = s.mdr := rfl
@[simp] theorem State.decoded_readPending (s : State) (row : DecodeRow) : (s.decoded row).readPending = s.readPending := rfl
@[simp] theorem State.decoded_writePending (s : State) (row : DecodeRow) : (s.decoded row).writePending = s.writePending := rfl
@[simp] theorem State.decoded_programQueue (s : State) (row : DecodeRow) : (s.decoded row).programQueue = s.programQueue := rfl
@[simp] theorem State.decoded_loadAddress (s : State) (row : DecodeRow) : (s.decoded row).loadAddress = s.loadAddress := rfl
@[simp] theorem State.decoded_isLoading (s : State) (row : DecodeRow) : (s.decoded row).isLoading = s.isLoading := rfl
@[simp] theorem State.decoded_waiting (s : State) (row : DecodeRow) : (s.decoded row).waiting = s.waiting := rfl
@[simp] theorem State.decoded_out (s : State) (row : DecodeRow) : (s.decoded row).out = s.out := rfl
@[simp] theorem State.decoded_faults (s : State) (row : DecodeRow) : (s.decoded row).faults = s.faults := rfl
@[simp] theorem State.decoded_tickCount (s : State) (row : DecodeRow) : (s.decoded row).tickCount = s.tickCount := rfl
@[simp] theorem State.decoded_readCompleted (s : State) (row : DecodeRow) : (s.decoded row).readCompleted = s.readCompleted := rfl
@[simp] theorem State.decoded_arrivals (s : State) (row : DecodeRow) : (s.decoded row).arrivals = s.arrivals := rfl

/-! ## `tickStart` -/

@[simp] theorem State.tickStart_a (s : State) : (s.tickStart).a = s.a := rfl
@[simp] theorem State.tickStart_x (s : State) : (s.tickStart).x = s.x := rfl
@[simp] theorem State.tickStart_y (s : State) : (s.tickStart).y = s.y := rfl
@[simp] theorem State.tickStart_z (s : State) : (s.tickStart).z = s.z := rfl
@[simp] theorem State.tickStart_c (s : State) : (s.tickStart).c = s.c := rfl
@[simp] theorem State.tickStart_pc (s : State) : (s.tickStart).pc = s.pc := rfl
@[simp] theorem State.tickStart_opcode (s : State) : (s.tickStart).opcode = s.opcode := rfl
@[simp] theorem State.tickStart_ir (s : State) : (s.tickStart).ir = s.ir := rfl
@[simp] theorem State.tickStart_operand0 (s : State) : (s.tickStart).operand0 = s.operand0 := rfl
@[simp] theorem State.tickStart_operand1 (s : State) : (s.tickStart).operand1 = s.operand1 := rfl
@[simp] theorem State.tickStart_stage (s : State) : (s.tickStart).stage = s.stage := rfl
@[simp] theorem State.tickStart_pulse (s : State) : (s.tickStart).pulse = s.pulse := rfl
@[simp] theorem State.tickStart_fetchCount (s : State) : (s.tickStart).fetchCount = s.fetchCount := rfl
@[simp] theorem State.tickStart_currentFetch (s : State) : (s.tickStart).currentFetch = s.currentFetch := rfl
@[simp] theorem State.tickStart_writeAddress (s : State) : (s.tickStart).writeAddress = s.writeAddress := rfl
@[simp] theorem State.tickStart_writeValue (s : State) : (s.tickStart).writeValue = s.writeValue := rfl
@[simp] theorem State.tickStart_strPtr (s : State) : (s.tickStart).strPtr = s.strPtr := rfl
@[simp] theorem State.tickStart_pendingInterrupt (s : State) : (s.tickStart).pendingInterrupt = s.pendingInterrupt := rfl
@[simp] theorem State.tickStart_running (s : State) : (s.tickStart).running = s.running := rfl
@[simp] theorem State.tickStart_useCarry (s : State) : (s.tickStart).useCarry = s.useCarry := rfl
@[simp] theorem State.tickStart_debugLog (s : State) : (s.tickStart).debugLog = s.debugLog := rfl
@[simp] theorem State.tickStart_cells (s : State) : (s.tickStart).cells = s.cells := rfl
@[simp] theorem State.tickStart_mar (s : State) : (s.tickStart).mar = s.mar := rfl
@[simp] theorem State.tickStart_mdr (s : State) : (s.tickStart).mdr = s.mdr := rfl
@[simp] theorem State.tickStart_readPending (s : State) : (s.tickStart).readPending = s.readPending := rfl
@[simp] theorem State.tickStart_writePending (s : State) : (s.tickStart).writePending = s.writePending := rfl
@[simp] theorem State.tickStart_programQueue (s : State) : (s.tickStart).programQueue = s.programQueue := rfl
@[simp] theorem State.tickStart_loadAddress (s : State) : (s.tickStart).loadAddress = s.loadAddress := rfl
@[simp] theorem State.tickStart_isLoading (s : State) : (s.tickStart).isLoading = s.isLoading := rfl
@[simp] theorem State.tickStart_waiting (s : State) : (s.tickStart).waiting = s.waiting ++ s.arrivals.headD [] := rfl
@[simp] theorem State.tickStart_out (s : State) : (s.tickStart).out = s.out := rfl
@[simp] theorem State.tickStart_faults (s : State) : (s.tickStart).faults = s.faults := rfl
@[simp] theorem State.tickStart_tickCount (s : State) : (s.tickStart).tickCount = s.tickCount + 1 := rfl
@[simp] theorem State.tickStart_readCompleted (s : State) : (s.tickStart).readCompleted = s.readCompleted := rfl
@[simp] theorem State.tickStart_arrivals (s : State) : (s.tickStart).arrivals = s.arrivals.tail := rfl

/-! ## `done` -/

@[simp] theorem State.done_a (s : State) : (s.done).a = s.a := rfl
@[simp] theorem State.done_x (s : State) : (s.done).x = s.x := rfl
@[simp] theorem State.done_y (s : State) : (s.done).y = s.y := rfl
@[simp] theorem State.done_z (s : State) : (s.done).z = s.z := rfl
@[simp] theorem State.done_c (s : State) : (s.done).c = s.c := rfl
@[simp] theorem State.done_pc (s : State) : (s.done).pc = s.pc := rfl
@[simp] theorem State.done_opcode (s : State) : (s.done).opcode = s.opcode := rfl
@[simp] theorem State.done_ir (s : State) : (s.done).ir = s.ir := rfl
@[simp] theorem State.done_operand0 (s : State) : (s.done).operand0 = s.operand0 := rfl
@[simp] theorem State.done_operand1 (s : State) : (s.done).operand1 = s.operand1 := rfl
@[simp] theorem State.done_stage (s : State) : (s.done).stage = s.stageAfterDone := rfl
@[simp] theorem State.done_pulse (s : State) : (s.done).pulse = 0 := rfl
@[simp] theorem State.done_fetchCount (s : State) : (s.done).fetchCount = s.fetchCount := rfl
@[simp] theorem State.done_currentFetch (s : State) : (s.done).currentFetch = s.currentFetch := rfl
@[simp] theorem State.done_writeAddress (s : State) : (s.done).writeAddress = s.writeAddress := rfl
@[simp] theorem State.done_writeValue (s : State) : (s.done).writeValue = s.writeValue := rfl
@[simp] theorem State.done_strPtr (s : State) : (s.done).strPtr = s.strPtr := rfl
@[simp] theorem State.done_pendingInterrupt (s : State) : (s.done).pendingInterrupt = s.pendingInterrupt := rfl
@[simp] theorem State.done_running (s : State) : (s.done).running = s.running := rfl
@[simp] theorem State.done_useCarry (s : State) : (s.done).useCarry = s.useCarry := rfl
@[simp] theorem State.done_debugLog (s : State) : (s.done).debugLog = s.debugLog := rfl
@[simp] theorem State.done_cells (s : State) : (s.done).cells = s.cells := rfl
@[simp] theorem State.done_mar (s : State) : (s.done).mar = s.mar := rfl
@[simp] theorem State.done_mdr (s : State) : (s.done).mdr = s.mdr := rfl
@[simp] theorem State.done_readPending (s : State) : (s.done).readPending = s.readPending := rfl
@[simp] theorem State.done_writePending (s : State) : (s.done).writePending = s.writePending := rfl
@[simp] theorem State.done_programQueue (s : State) : (s.done).programQueue = s.programQueue := rfl
@[simp] theorem State.done_loadAddress (s : State) : (s.done).loadAddress = s.loadAddress := rfl
@[simp] theorem State.done_isLoading (s : State) : (s.done).isLoading = s.isLoading := rfl
@[simp] theorem State.done_waiting (s : State) : (s.done).waiting = s.waiting := rfl
@[simp] theorem State.done_out (s : State) : (s.done).out = s.out := rfl
@[simp] theorem State.done_faults (s : State) : (s.done).faults = s.faults := rfl
@[simp] theorem State.done_tickCount (s : State) : (s.done).tickCount = s.tickCount := rfl
@[simp] theorem State.done_readCompleted (s : State) : (s.done).readCompleted = s.readCompleted := rfl
@[simp] theorem State.done_arrivals (s : State) : (s.done).arrivals = s.arrivals := rfl

/-! ## `serveRead` -/

@[simp] theorem State.serveRead_a (s : State) : (s.serveRead).a = s.a := rfl
@[simp] theorem State.serveRead_x (s : State) : (s.serveRead).x = s.x := rfl
@[simp] theorem State.serveRead_y (s : State) : (s.serveRead).y = s.y := rfl
@[simp] theorem State.serveRead_z (s : State) : (s.serveRead).z = s.z := rfl
@[simp] theorem State.serveRead_c (s : State) : (s.serveRead).c = s.c := rfl
@[simp] theorem State.serveRead_pc (s : State) : (s.serveRead).pc = s.pc := rfl
@[simp] theorem State.serveRead_opcode (s : State) : (s.serveRead).opcode = s.opcode := rfl
@[simp] theorem State.serveRead_ir (s : State) : (s.serveRead).ir = s.ir := rfl
@[simp] theorem State.serveRead_operand0 (s : State) : (s.serveRead).operand0 = s.operand0 := rfl
@[simp] theorem State.serveRead_operand1 (s : State) : (s.serveRead).operand1 = s.operand1 := rfl
@[simp] theorem State.serveRead_stage (s : State) : (s.serveRead).stage = s.stage := rfl
@[simp] theorem State.serveRead_pulse (s : State) : (s.serveRead).pulse = s.pulse := rfl
@[simp] theorem State.serveRead_fetchCount (s : State) : (s.serveRead).fetchCount = s.fetchCount := rfl
@[simp] theorem State.serveRead_currentFetch (s : State) : (s.serveRead).currentFetch = s.currentFetch := rfl
@[simp] theorem State.serveRead_writeAddress (s : State) : (s.serveRead).writeAddress = s.writeAddress := rfl
@[simp] theorem State.serveRead_writeValue (s : State) : (s.serveRead).writeValue = s.writeValue := rfl
@[simp] theorem State.serveRead_strPtr (s : State) : (s.serveRead).strPtr = s.strPtr := rfl
@[simp] theorem State.serveRead_pendingInterrupt (s : State) : (s.serveRead).pendingInterrupt = s.pendingInterrupt := rfl
@[simp] theorem State.serveRead_running (s : State) : (s.serveRead).running = s.running := rfl
@[simp] theorem State.serveRead_useCarry (s : State) : (s.serveRead).useCarry = s.useCarry := rfl
@[simp] theorem State.serveRead_debugLog (s : State) : (s.serveRead).debugLog = s.debugLog := rfl
@[simp] theorem State.serveRead_cells (s : State) : (s.serveRead).cells = s.cells := rfl
@[simp] theorem State.serveRead_mar (s : State) : (s.serveRead).mar = s.mar := rfl
@[simp] theorem State.serveRead_mdr (s : State) : (s.serveRead).mdr = if s.readPending = true then s.cell s.mar else s.mdr := rfl
@[simp] theorem State.serveRead_readPending (s : State) : (s.serveRead).readPending = false := rfl
@[simp] theorem State.serveRead_writePending (s : State) : (s.serveRead).writePending = s.writePending := rfl
@[simp] theorem State.serveRead_programQueue (s : State) : (s.serveRead).programQueue = s.programQueue := rfl
@[simp] theorem State.serveRead_loadAddress (s : State) : (s.serveRead).loadAddress = s.loadAddress := rfl
@[simp] theorem State.serveRead_isLoading (s : State) : (s.serveRead).isLoading = s.isLoading := rfl
@[simp] theorem State.serveRead_waiting (s : State) : (s.serveRead).waiting = s.waiting := rfl
@[simp] theorem State.serveRead_out (s : State) : (s.serveRead).out = s.out := rfl
@[simp] theorem State.serveRead_faults (s : State) : (s.serveRead).faults = s.faults := rfl
@[simp] theorem State.serveRead_tickCount (s : State) : (s.serveRead).tickCount = s.tickCount := rfl
@[simp] theorem State.serveRead_readCompleted (s : State) : (s.serveRead).readCompleted = s.readPending := rfl
@[simp] theorem State.serveRead_arrivals (s : State) : (s.serveRead).arrivals = s.arrivals := rfl

/-! ## `captureOperand` -/

@[simp] theorem State.captureOperand_a (s : State) (b : Byte) : (s.captureOperand b).a = s.a := rfl
@[simp] theorem State.captureOperand_x (s : State) (b : Byte) : (s.captureOperand b).x = s.x := rfl
@[simp] theorem State.captureOperand_y (s : State) (b : Byte) : (s.captureOperand b).y = s.y := rfl
@[simp] theorem State.captureOperand_z (s : State) (b : Byte) : (s.captureOperand b).z = s.z := rfl
@[simp] theorem State.captureOperand_c (s : State) (b : Byte) : (s.captureOperand b).c = s.c := rfl
@[simp] theorem State.captureOperand_pc (s : State) (b : Byte) : (s.captureOperand b).pc = s.pc + 1 := rfl
@[simp] theorem State.captureOperand_opcode (s : State) (b : Byte) : (s.captureOperand b).opcode = s.opcode := rfl
@[simp] theorem State.captureOperand_ir (s : State) (b : Byte) : (s.captureOperand b).ir = s.ir := rfl
@[simp] theorem State.captureOperand_operand0 (s : State) (b : Byte) : (s.captureOperand b).operand0 = if s.currentFetch = 0 then b else s.operand0 := rfl
@[simp] theorem State.captureOperand_operand1 (s : State) (b : Byte) : (s.captureOperand b).operand1 = if s.currentFetch = 1 then b else s.operand1 := rfl
@[simp] theorem State.captureOperand_stage (s : State) (b : Byte) : (s.captureOperand b).stage = s.stage := rfl
@[simp] theorem State.captureOperand_pulse (s : State) (b : Byte) : (s.captureOperand b).pulse = 0 := rfl
@[simp] theorem State.captureOperand_fetchCount (s : State) (b : Byte) : (s.captureOperand b).fetchCount = if s.lastOperand = true then 0 else s.fetchCount := rfl
@[simp] theorem State.captureOperand_currentFetch (s : State) (b : Byte) : (s.captureOperand b).currentFetch = if s.lastOperand = true then 0 else s.currentFetch + 1 := rfl
@[simp] theorem State.captureOperand_writeAddress (s : State) (b : Byte) : (s.captureOperand b).writeAddress = s.writeAddress := rfl
@[simp] theorem State.captureOperand_writeValue (s : State) (b : Byte) : (s.captureOperand b).writeValue = s.writeValue := rfl
@[simp] theorem State.captureOperand_strPtr (s : State) (b : Byte) : (s.captureOperand b).strPtr = s.strPtr := rfl
@[simp] theorem State.captureOperand_pendingInterrupt (s : State) (b : Byte) : (s.captureOperand b).pendingInterrupt = s.pendingInterrupt := rfl
@[simp] theorem State.captureOperand_running (s : State) (b : Byte) : (s.captureOperand b).running = s.running := rfl
@[simp] theorem State.captureOperand_useCarry (s : State) (b : Byte) : (s.captureOperand b).useCarry = s.useCarry := rfl
@[simp] theorem State.captureOperand_debugLog (s : State) (b : Byte) : (s.captureOperand b).debugLog = s.debugLog := rfl
@[simp] theorem State.captureOperand_cells (s : State) (b : Byte) : (s.captureOperand b).cells = s.cells := rfl
@[simp] theorem State.captureOperand_mar (s : State) (b : Byte) : (s.captureOperand b).mar = s.mar := rfl
@[simp] theorem State.captureOperand_mdr (s : State) (b : Byte) : (s.captureOperand b).mdr = s.mdr := rfl
@[simp] theorem State.captureOperand_readPending (s : State) (b : Byte) : (s.captureOperand b).readPending = s.readPending := rfl
@[simp] theorem State.captureOperand_writePending (s : State) (b : Byte) : (s.captureOperand b).writePending = s.writePending := rfl
@[simp] theorem State.captureOperand_programQueue (s : State) (b : Byte) : (s.captureOperand b).programQueue = s.programQueue := rfl
@[simp] theorem State.captureOperand_loadAddress (s : State) (b : Byte) : (s.captureOperand b).loadAddress = s.loadAddress := rfl
@[simp] theorem State.captureOperand_isLoading (s : State) (b : Byte) : (s.captureOperand b).isLoading = s.isLoading := rfl
@[simp] theorem State.captureOperand_waiting (s : State) (b : Byte) : (s.captureOperand b).waiting = s.waiting := rfl
@[simp] theorem State.captureOperand_out (s : State) (b : Byte) : (s.captureOperand b).out = s.out := rfl
@[simp] theorem State.captureOperand_faults (s : State) (b : Byte) : (s.captureOperand b).faults = s.faults := rfl
@[simp] theorem State.captureOperand_tickCount (s : State) (b : Byte) : (s.captureOperand b).tickCount = s.tickCount := rfl
@[simp] theorem State.captureOperand_readCompleted (s : State) (b : Byte) : (s.captureOperand b).readCompleted = s.readCompleted := rfl
@[simp] theorem State.captureOperand_arrivals (s : State) (b : Byte) : (s.captureOperand b).arrivals = s.arrivals := rfl

/-! ## `memoryReset` -/

@[simp] theorem State.memoryReset_a (s : State) : (s.memoryReset).a = s.a := rfl
@[simp] theorem State.memoryReset_x (s : State) : (s.memoryReset).x = s.x := rfl
@[simp] theorem State.memoryReset_y (s : State) : (s.memoryReset).y = s.y := rfl
@[simp] theorem State.memoryReset_z (s : State) : (s.memoryReset).z = s.z := rfl
@[simp] theorem State.memoryReset_c (s : State) : (s.memoryReset).c = s.c := rfl
@[simp] theorem State.memoryReset_pc (s : State) : (s.memoryReset).pc = s.pc := rfl
@[simp] theorem State.memoryReset_opcode (s : State) : (s.memoryReset).opcode = s.opcode := rfl
@[simp] theorem State.memoryReset_ir (s : State) : (s.memoryReset).ir = s.ir := rfl
@[simp] theorem State.memoryReset_operand0 (s : State) : (s.memoryReset).operand0 = s.operand0 := rfl
@[simp] theorem State.memoryReset_operand1 (s : State) : (s.memoryReset).operand1 = s.operand1 := rfl
@[simp] theorem State.memoryReset_stage (s : State) : (s.memoryReset).stage = s.stage := rfl
@[simp] theorem State.memoryReset_pulse (s : State) : (s.memoryReset).pulse = s.pulse := rfl
@[simp] theorem State.memoryReset_fetchCount (s : State) : (s.memoryReset).fetchCount = s.fetchCount := rfl
@[simp] theorem State.memoryReset_currentFetch (s : State) : (s.memoryReset).currentFetch = s.currentFetch := rfl
@[simp] theorem State.memoryReset_writeAddress (s : State) : (s.memoryReset).writeAddress = s.writeAddress := rfl
@[simp] theorem State.memoryReset_writeValue (s : State) : (s.memoryReset).writeValue = s.writeValue := rfl
@[simp] theorem State.memoryReset_strPtr (s : State) : (s.memoryReset).strPtr = s.strPtr := rfl
@[simp] theorem State.memoryReset_pendingInterrupt (s : State) : (s.memoryReset).pendingInterrupt = s.pendingInterrupt := rfl
@[simp] theorem State.memoryReset_running (s : State) : (s.memoryReset).running = s.running := rfl
@[simp] theorem State.memoryReset_useCarry (s : State) : (s.memoryReset).useCarry = s.useCarry := rfl
@[simp] theorem State.memoryReset_debugLog (s : State) : (s.memoryReset).debugLog = s.debugLog := rfl
@[simp] theorem State.memoryReset_cells (s : State) : (s.memoryReset).cells = [] := rfl
@[simp] theorem State.memoryReset_mar (s : State) : (s.memoryReset).mar = 0x0000#16 := rfl
@[simp] theorem State.memoryReset_mdr (s : State) : (s.memoryReset).mdr = 0x00#8 := rfl
@[simp] theorem State.memoryReset_readPending (s : State) : (s.memoryReset).readPending = false := rfl
@[simp] theorem State.memoryReset_writePending (s : State) : (s.memoryReset).writePending = false := rfl
@[simp] theorem State.memoryReset_programQueue (s : State) : (s.memoryReset).programQueue = s.programQueue := rfl
@[simp] theorem State.memoryReset_loadAddress (s : State) : (s.memoryReset).loadAddress = s.loadAddress := rfl
@[simp] theorem State.memoryReset_isLoading (s : State) : (s.memoryReset).isLoading = s.isLoading := rfl
@[simp] theorem State.memoryReset_waiting (s : State) : (s.memoryReset).waiting = s.waiting := rfl
@[simp] theorem State.memoryReset_out (s : State) : (s.memoryReset).out = s.out := rfl
@[simp] theorem State.memoryReset_faults (s : State) : (s.memoryReset).faults = s.faults := rfl
@[simp] theorem State.memoryReset_tickCount (s : State) : (s.memoryReset).tickCount = s.tickCount := rfl
@[simp] theorem State.memoryReset_readCompleted (s : State) : (s.memoryReset).readCompleted = false := rfl
@[simp] theorem State.memoryReset_arrivals (s : State) : (s.memoryReset).arrivals = s.arrivals := rfl

/-! ## `mmuReset` -/

@[simp] theorem State.mmuReset_a (s : State) : (s.mmuReset).a = s.a := rfl
@[simp] theorem State.mmuReset_x (s : State) : (s.mmuReset).x = s.x := rfl
@[simp] theorem State.mmuReset_y (s : State) : (s.mmuReset).y = s.y := rfl
@[simp] theorem State.mmuReset_z (s : State) : (s.mmuReset).z = s.z := rfl
@[simp] theorem State.mmuReset_c (s : State) : (s.mmuReset).c = s.c := rfl
@[simp] theorem State.mmuReset_pc (s : State) : (s.mmuReset).pc = s.pc := rfl
@[simp] theorem State.mmuReset_opcode (s : State) : (s.mmuReset).opcode = s.opcode := rfl
@[simp] theorem State.mmuReset_ir (s : State) : (s.mmuReset).ir = s.ir := rfl
@[simp] theorem State.mmuReset_operand0 (s : State) : (s.mmuReset).operand0 = s.operand0 := rfl
@[simp] theorem State.mmuReset_operand1 (s : State) : (s.mmuReset).operand1 = s.operand1 := rfl
@[simp] theorem State.mmuReset_stage (s : State) : (s.mmuReset).stage = s.stage := rfl
@[simp] theorem State.mmuReset_pulse (s : State) : (s.mmuReset).pulse = s.pulse := rfl
@[simp] theorem State.mmuReset_fetchCount (s : State) : (s.mmuReset).fetchCount = s.fetchCount := rfl
@[simp] theorem State.mmuReset_currentFetch (s : State) : (s.mmuReset).currentFetch = s.currentFetch := rfl
@[simp] theorem State.mmuReset_writeAddress (s : State) : (s.mmuReset).writeAddress = s.writeAddress := rfl
@[simp] theorem State.mmuReset_writeValue (s : State) : (s.mmuReset).writeValue = s.writeValue := rfl
@[simp] theorem State.mmuReset_strPtr (s : State) : (s.mmuReset).strPtr = s.strPtr := rfl
@[simp] theorem State.mmuReset_pendingInterrupt (s : State) : (s.mmuReset).pendingInterrupt = s.pendingInterrupt := rfl
@[simp] theorem State.mmuReset_running (s : State) : (s.mmuReset).running = s.running := rfl
@[simp] theorem State.mmuReset_useCarry (s : State) : (s.mmuReset).useCarry = s.useCarry := rfl
@[simp] theorem State.mmuReset_debugLog (s : State) : (s.mmuReset).debugLog = s.debugLog := rfl
@[simp] theorem State.mmuReset_cells (s : State) : (s.mmuReset).cells = [] := rfl
@[simp] theorem State.mmuReset_mar (s : State) : (s.mmuReset).mar = 0x0000#16 := rfl
@[simp] theorem State.mmuReset_mdr (s : State) : (s.mmuReset).mdr = 0x00#8 := rfl
@[simp] theorem State.mmuReset_readPending (s : State) : (s.mmuReset).readPending = false := rfl
@[simp] theorem State.mmuReset_writePending (s : State) : (s.mmuReset).writePending = false := rfl
@[simp] theorem State.mmuReset_programQueue (s : State) : (s.mmuReset).programQueue = [] := rfl
@[simp] theorem State.mmuReset_loadAddress (s : State) : (s.mmuReset).loadAddress = 0x0000#16 := rfl
@[simp] theorem State.mmuReset_isLoading (s : State) : (s.mmuReset).isLoading = false := rfl
@[simp] theorem State.mmuReset_waiting (s : State) : (s.mmuReset).waiting = s.waiting := rfl
@[simp] theorem State.mmuReset_out (s : State) : (s.mmuReset).out = s.out := rfl
@[simp] theorem State.mmuReset_faults (s : State) : (s.mmuReset).faults = s.faults := rfl
@[simp] theorem State.mmuReset_tickCount (s : State) : (s.mmuReset).tickCount = s.tickCount := rfl
@[simp] theorem State.mmuReset_readCompleted (s : State) : (s.mmuReset).readCompleted = false := rfl
@[simp] theorem State.mmuReset_arrivals (s : State) : (s.mmuReset).arrivals = s.arrivals := rfl

/-! ## `clockReset` -/

@[simp] theorem State.clockReset_a (s : State) : (s.clockReset).a = s.a := rfl
@[simp] theorem State.clockReset_x (s : State) : (s.clockReset).x = s.x := rfl
@[simp] theorem State.clockReset_y (s : State) : (s.clockReset).y = s.y := rfl
@[simp] theorem State.clockReset_z (s : State) : (s.clockReset).z = s.z := rfl
@[simp] theorem State.clockReset_c (s : State) : (s.clockReset).c = s.c := rfl
@[simp] theorem State.clockReset_pc (s : State) : (s.clockReset).pc = s.pc := rfl
@[simp] theorem State.clockReset_opcode (s : State) : (s.clockReset).opcode = s.opcode := rfl
@[simp] theorem State.clockReset_ir (s : State) : (s.clockReset).ir = s.ir := rfl
@[simp] theorem State.clockReset_operand0 (s : State) : (s.clockReset).operand0 = s.operand0 := rfl
@[simp] theorem State.clockReset_operand1 (s : State) : (s.clockReset).operand1 = s.operand1 := rfl
@[simp] theorem State.clockReset_stage (s : State) : (s.clockReset).stage = s.stage := rfl
@[simp] theorem State.clockReset_pulse (s : State) : (s.clockReset).pulse = s.pulse := rfl
@[simp] theorem State.clockReset_fetchCount (s : State) : (s.clockReset).fetchCount = s.fetchCount := rfl
@[simp] theorem State.clockReset_currentFetch (s : State) : (s.clockReset).currentFetch = s.currentFetch := rfl
@[simp] theorem State.clockReset_writeAddress (s : State) : (s.clockReset).writeAddress = s.writeAddress := rfl
@[simp] theorem State.clockReset_writeValue (s : State) : (s.clockReset).writeValue = s.writeValue := rfl
@[simp] theorem State.clockReset_strPtr (s : State) : (s.clockReset).strPtr = s.strPtr := rfl
@[simp] theorem State.clockReset_pendingInterrupt (s : State) : (s.clockReset).pendingInterrupt = s.pendingInterrupt := rfl
@[simp] theorem State.clockReset_running (s : State) : (s.clockReset).running = s.running := rfl
@[simp] theorem State.clockReset_useCarry (s : State) : (s.clockReset).useCarry = s.useCarry := rfl
@[simp] theorem State.clockReset_debugLog (s : State) : (s.clockReset).debugLog = s.debugLog := rfl
@[simp] theorem State.clockReset_cells (s : State) : (s.clockReset).cells = s.cells := rfl
@[simp] theorem State.clockReset_mar (s : State) : (s.clockReset).mar = s.mar := rfl
@[simp] theorem State.clockReset_mdr (s : State) : (s.clockReset).mdr = s.mdr := rfl
@[simp] theorem State.clockReset_readPending (s : State) : (s.clockReset).readPending = s.readPending := rfl
@[simp] theorem State.clockReset_writePending (s : State) : (s.clockReset).writePending = s.writePending := rfl
@[simp] theorem State.clockReset_programQueue (s : State) : (s.clockReset).programQueue = s.programQueue := rfl
@[simp] theorem State.clockReset_loadAddress (s : State) : (s.clockReset).loadAddress = s.loadAddress := rfl
@[simp] theorem State.clockReset_isLoading (s : State) : (s.clockReset).isLoading = s.isLoading := rfl
@[simp] theorem State.clockReset_waiting (s : State) : (s.clockReset).waiting = s.waiting := rfl
@[simp] theorem State.clockReset_out (s : State) : (s.clockReset).out = s.out := rfl
@[simp] theorem State.clockReset_faults (s : State) : (s.clockReset).faults = s.faults := rfl
@[simp] theorem State.clockReset_tickCount (s : State) : (s.clockReset).tickCount = 0 := rfl
@[simp] theorem State.clockReset_readCompleted (s : State) : (s.clockReset).readCompleted = s.readCompleted := rfl
@[simp] theorem State.clockReset_arrivals (s : State) : (s.clockReset).arrivals = s.arrivals := rfl

/-! ## `cpuReset` -/

@[simp] theorem State.cpuReset_a (s : State) : (s.cpuReset).a = 0x00#8 := rfl
@[simp] theorem State.cpuReset_x (s : State) : (s.cpuReset).x = 0x00#8 := rfl
@[simp] theorem State.cpuReset_y (s : State) : (s.cpuReset).y = 0x00#8 := rfl
@[simp] theorem State.cpuReset_z (s : State) : (s.cpuReset).z = false := rfl
@[simp] theorem State.cpuReset_c (s : State) : (s.cpuReset).c = false := rfl
@[simp] theorem State.cpuReset_pc (s : State) : (s.cpuReset).pc = 0x0000#16 := rfl
@[simp] theorem State.cpuReset_opcode (s : State) : (s.cpuReset).opcode = 0x00#8 := rfl
@[simp] theorem State.cpuReset_ir (s : State) : (s.cpuReset).ir = .none := rfl
@[simp] theorem State.cpuReset_operand0 (s : State) : (s.cpuReset).operand0 = 0x00#8 := rfl
@[simp] theorem State.cpuReset_operand1 (s : State) : (s.cpuReset).operand1 = 0x00#8 := rfl
@[simp] theorem State.cpuReset_stage (s : State) : (s.cpuReset).stage = .fetch := rfl
@[simp] theorem State.cpuReset_pulse (s : State) : (s.cpuReset).pulse = 0 := rfl
@[simp] theorem State.cpuReset_fetchCount (s : State) : (s.cpuReset).fetchCount = 0 := rfl
@[simp] theorem State.cpuReset_currentFetch (s : State) : (s.cpuReset).currentFetch = 0 := rfl
@[simp] theorem State.cpuReset_writeAddress (s : State) : (s.cpuReset).writeAddress = none := rfl
@[simp] theorem State.cpuReset_writeValue (s : State) : (s.cpuReset).writeValue = none := rfl
@[simp] theorem State.cpuReset_strPtr (s : State) : (s.cpuReset).strPtr = 0x0000#16 := rfl
@[simp] theorem State.cpuReset_pendingInterrupt (s : State) : (s.cpuReset).pendingInterrupt = none := rfl
@[simp] theorem State.cpuReset_running (s : State) : (s.cpuReset).running = s.running := rfl
@[simp] theorem State.cpuReset_useCarry (s : State) : (s.cpuReset).useCarry = s.useCarry := rfl
@[simp] theorem State.cpuReset_debugLog (s : State) : (s.cpuReset).debugLog = s.debugLog := rfl
@[simp] theorem State.cpuReset_cells (s : State) : (s.cpuReset).cells = s.cells := rfl
@[simp] theorem State.cpuReset_mar (s : State) : (s.cpuReset).mar = s.mar := rfl
@[simp] theorem State.cpuReset_mdr (s : State) : (s.cpuReset).mdr = s.mdr := rfl
@[simp] theorem State.cpuReset_readPending (s : State) : (s.cpuReset).readPending = s.readPending := rfl
@[simp] theorem State.cpuReset_writePending (s : State) : (s.cpuReset).writePending = s.writePending := rfl
@[simp] theorem State.cpuReset_programQueue (s : State) : (s.cpuReset).programQueue = s.programQueue := rfl
@[simp] theorem State.cpuReset_loadAddress (s : State) : (s.cpuReset).loadAddress = s.loadAddress := rfl
@[simp] theorem State.cpuReset_isLoading (s : State) : (s.cpuReset).isLoading = s.isLoading := rfl
@[simp] theorem State.cpuReset_waiting (s : State) : (s.cpuReset).waiting = [] := rfl
@[simp] theorem State.cpuReset_out (s : State) : (s.cpuReset).out = [] := rfl
@[simp] theorem State.cpuReset_faults (s : State) : (s.cpuReset).faults = [] := rfl
@[simp] theorem State.cpuReset_tickCount (s : State) : (s.cpuReset).tickCount = s.tickCount := rfl
@[simp] theorem State.cpuReset_readCompleted (s : State) : (s.cpuReset).readCompleted = s.readCompleted := rfl
@[simp] theorem State.cpuReset_arrivals (s : State) : (s.cpuReset).arrivals = s.arrivals := rfl

end Sys2Proof.Machine
end

