-- ==== Sys2Proof/Laws/Memory.lean ====
section
/-! SUPPORT. Memory: a read after a write, the canonical form that every memory operation keeps, and what the Memory
phase does (20_memory.md R39, R44). -/

namespace Sys2Proof.Machine

/-- An address below every listed one reads as unlisted. -/
theorem Memory.read_of_lt {m : List Host.Cell} {a : Nat} (h : ∀ p ∈ m, a < p.1) :
    Memory.read m a = Memory.unlisted := by
  induction m with
  | nil => rfl
  | cons p m ih =>
    have := h p (by simp)
    rw [Memory.read, if_neg (by omega)]
    exact ih (fun q hq => h q (by simp [hq]))

/-- The head of a canonical memory lies below the rest, which is canonical. -/
theorem Memory.wf_cons {p : Host.Cell} {m : List Host.Cell} :
    Memory.wf (p :: m) ↔
      (p.1 < 65536 ∧ p.2 ≠ Memory.unlisted) ∧ (∀ q ∈ m, p.1 < q.1) ∧ Memory.wf m := by
  simp only [Memory.wf, List.pairwise_cons, List.forall_mem_cons]
  tauto

theorem Memory.read_cons (a b : Nat) (v : Byte) (m : List Host.Cell) (h : ∀ p ∈ m, a < p.1) :
    Memory.read (Memory.cons a v m) b = if a = b then v else Memory.read m b := by
  unfold Memory.cons
  split
  · subst v
    split
    · subst b; exact Memory.read_of_lt h
    · rfl
  · rfl

/-- A read after a write gives the value written at its address, and the old value at every other (R39). -/
theorem Memory.read_write {m : List Host.Cell} (h : Memory.wf m) (a b : Nat) (v : Byte) :
    Memory.read (Memory.write m a v) b = if a = b then v else Memory.read m b := by
  induction m with
  | nil => exact Memory.read_cons a b v [] (by simp)
  | cons p m ih =>
    obtain ⟨-, hlt, hm⟩ := Memory.wf_cons.1 h
    unfold Memory.write
    split
    · refine Memory.read_cons a b v (p :: m) ?_
      simp only [List.forall_mem_cons]
      exact ⟨‹_›, fun q hq => lt_trans ‹_› (hlt q hq)⟩
    · split
      · rw [Memory.read_cons a b v m (fun q hq => by have := hlt q hq; omega)]
        rw [Memory.read]
        split
        · rfl
        · rw [if_neg (by omega)]
      · rw [Memory.read, ih hm, Memory.read]
        split
        · rw [if_neg (by omega)]
        · rfl

/-- Every entry of a written memory is the written one or an old one. -/
theorem Memory.mem_write {m : List Host.Cell} {a : Nat} {v : Byte} {q : Host.Cell}
    (h : q ∈ Memory.write m a v) : (q = (a, v) ∧ v ≠ Memory.unlisted) ∨ q ∈ m := by
  induction m with
  | nil => unfold Memory.write Memory.cons at h; split at h <;> simp_all
  | cons p m ih =>
    unfold Memory.write Memory.cons at h
    split at h
    · split at h
      · exact .inr h
      · rcases List.mem_cons.1 h with h | h
        · exact .inl ⟨h, ‹_›⟩
        · exact .inr h
    · split at h
      · split at h
        · exact .inr (by simp [h])
        · rcases List.mem_cons.1 h with h | h
          · exact .inl ⟨h, ‹_›⟩
          · exact .inr (by simp [h])
      · rcases List.mem_cons.1 h with h | h
        · exact .inr (by simp [h])
        · exact (ih h).imp_right (by simp +contextual)

/-- A write keeps the canonical form. -/
theorem Memory.wf_write {m : List Host.Cell} (h : Memory.wf m) {a : Nat} (ha : a < 65536) (v : Byte) :
    Memory.wf (Memory.write m a v) := by
  have hcons : ∀ l : List Host.Cell, Memory.wf l → (∀ p ∈ l, a < p.1) → Memory.wf (Memory.cons a v l) := by
    intro l hl hlt
    unfold Memory.cons
    split
    · exact hl
    · exact Memory.wf_cons.2 ⟨⟨ha, ‹_›⟩, hlt, hl⟩
  induction m with
  | nil => exact hcons [] h (by simp)
  | cons p m ih =>
    obtain ⟨hp, hlt, hm⟩ := Memory.wf_cons.1 h
    unfold Memory.write
    split
    · refine hcons _ h ?_
      simp only [List.forall_mem_cons]
      exact ⟨‹_›, fun q hq => lt_trans ‹_› (hlt q hq)⟩
    · split
      · exact hcons _ hm (fun q hq => by have := hlt q hq; omega)
      · refine Memory.wf_cons.2 ⟨hp, ?_, ih hm⟩
        intro q hq
        rcases Memory.mem_write hq with ⟨rfl, -⟩ | hq
        · simp only; omega
        · exact hlt q hq

/-- A cell after a write to a cell. -/
theorem State.cell_setCell {s : State} (h : Memory.wf s.cells) (a b : Word) (v : Byte) :
    (s.setCell a v).cell b = if a = b then v else s.cell b := by
  simp only [State.cell, State.setCell_cells, Memory.read_write h, BitVec.toNat_inj]

/-- Nothing is written and nothing is read in a Memory phase with no transaction pending. -/
theorem State.memoryTick_idle {s : State} (hw : s.writePending = false) (hr : s.readPending = false) :
    s.memoryTick = { s with readCompleted := false } := by
  simp [State.memoryTick, State.commitWrite, State.serveRead, hw, hr]

/-- The Memory phase after TriggerRead: the byte is in MDR (R44). -/
theorem State.memoryTick_triggerRead {s : State} (hw : s.writePending = false) (a : Word) :
    (s.triggerRead a).memoryTick =
      { s with mar := a, mdr := s.cell a, readPending := false, readCompleted := true } := by
  simp [State.memoryTick, State.commitWrite, State.serveRead, hw, State.triggerRead, State.setMar, State.queueRead,
    State.cell]

/-- The Memory phase after WriteImmediate: the byte is in its cell (R42, R44). -/
theorem State.memoryTick_writeImmediate {s : State} (hl : s.isLoading = false) (hr : s.readPending = false)
    (a : Word) (v : Byte) :
    (s.writeImmediate a v).memoryTick =
      { s with
        cells := Memory.write s.cells a.toNat v, mar := a, mdr := v, writePending := false,
        readCompleted := false } := by
  simp [State.memoryTick, State.commitWrite, State.serveRead, hl, hr, State.writeImmediate, State.setMar,
    State.setMdr, State.queueWrite, State.setCell]

/-- What AdvanceLoad can change: the latches, the queue, the load address, the loading flag and `write_pending`. -/
theorem State.advanceLoad_frame (s : State) :
    s.advanceLoad =
      { s with
        mar := s.advanceLoad.mar, mdr := s.advanceLoad.mdr, writePending := s.advanceLoad.writePending,
        programQueue := s.advanceLoad.programQueue, loadAddress := s.advanceLoad.loadAddress,
        isLoading := s.advanceLoad.isLoading } := by
  unfold State.advanceLoad
  split <;> rfl

/-- What the Memory phase can change: cells, the latches and flags of the Memory unit, and the MMU's queue. -/
theorem State.memoryTick_frame (s : State) :
    s.memoryTick =
      { s with
        cells := s.memoryTick.cells, mar := s.memoryTick.mar, mdr := s.memoryTick.mdr,
        readPending := s.memoryTick.readPending, writePending := s.memoryTick.writePending,
        programQueue := s.memoryTick.programQueue, loadAddress := s.memoryTick.loadAddress,
        isLoading := s.memoryTick.isLoading, readCompleted := s.memoryTick.readCompleted } := by
  unfold State.memoryTick State.commitWrite State.serveRead
  split
  · dsimp only
    split
    · unfold State.advanceLoad
      split <;> rfl
    · rfl
  · rfl

/-- The Memory phase keeps the canonical form of memory. -/
theorem State.memoryTick_wf {s : State} (h : Memory.wf s.cells) : Memory.wf s.memoryTick.cells := by
  have hw := Memory.wf_write h s.mar.isLt s.mdr
  rw [State.memoryTick, State.serveRead_cells]
  unfold State.commitWrite
  split
  · dsimp only
    split
    · rw [State.advanceLoad_frame]; exact hw
    · exact hw
  · exact h

end Sys2Proof.Machine
end

