-- ==== Sys2Proof/Laws/Pipeline.lean ====
section
/-! SUPPORT. One lemma per shared operation of the pipeline: what `done`, the micro-op shapes, `exec`, the CPU phase and
a step can answer. -/

namespace Sys2Proof.Machine

/-- `andThen` answers a next state exactly when both halves do. -/
theorem andThen_eq_next {o : Answer} {f : State → Answer} {t : State} :
    andThen o f = .next t ↔ ∃ u, o = .next u ∧ f u = .next t := by
  cases o <;> simp [andThen]

@[simp] theorem andThen_next (s : State) (f : State → Answer) : andThen (.next s) f = f s := rfl

/-- `done` with no deferred write goes to InterruptCheck (R74). -/
theorem State.done_of_none {s : State} (h : s.writeAddress = none) :
    s.done = { s with stage := .interruptCheck, pulse := 0 } := by
  simp [State.done, State.stageAfterDone, h, State.goto]

/-- `done` with the deferred write set goes to Writeback (R74). -/
theorem State.done_of_some {s : State} {a : Word} {v : Byte} (ha : s.writeAddress = some a)
    (hv : s.writeValue = some v) : s.done = { s with stage := .writeback, pulse := 0 } := by
  simp [State.done, State.stageAfterDone, ha, hv, State.goto]

/-- Everything `withMdr` can do. -/
theorem withMdr_eq_next {s t : State} {k : Byte → Answer} :
    withMdr s k = .next t ↔ s.readCompleted = true ∧ k s.mdr = .next t := by
  unfold withMdr
  split <;> simp_all

/-- Everything a one-sub-pulse micro-op can do. -/
theorem onePulse_eq_next {s t : State} {act : State → State} :
    onePulse s act = .next t ↔ s.pulse = 1 ∧ (act s).done = t := by
  unfold onePulse
  split <;> simp_all

/-- Everything a reading micro-op can do. -/
theorem readThen_eq_next {s t : State} {ea : Word} {act : Byte → State → State} :
    readThen s ea act = .next t ↔
      (s.pulse = 1 ∧ s.triggerRead ea = t) ∨
        (s.pulse = 2 ∧ s.readCompleted = true ∧ (act s.mdr s).done = t) := by
  unfold readThen
  split
  · simp_all
  · split
    · simp_all [withMdr_eq_next]
    · simp_all

/-- A step of a stopped machine changes nothing (R134). -/
theorem step_stopped {s : State} (h : s.running = false) : step s = .next s := by
  simp [step, h]

/-- A step of a running machine is one tick (R5). -/
theorem step_running {s : State} (h : s.running = true) :
    step s = andThen (cpuTick s.tickStart) (fun t => .next t.laterPhases) := by
  simp [step, h, tick]

/-- The CPU phase of a running machine that is not loading (R68, R70). -/
theorem cpuTick_active {s : State} (hr : s.running = true) (hl : s.isLoading = false) :
    cpuTick s = runPhase s.nextPulse := by
  simp [cpuTick, hr, hl]

/-- A step whose CPU phase acts (R65, R68, R70). -/
theorem step_active {s : State} (h : s.active) :
    step s = andThen (runPhase s.tickStart.nextPulse) (fun t => .next t.laterPhases) := by
  have : cpuTick s.tickStart = runPhase s.tickStart.nextPulse :=
    cpuTick_active (by simpa using h.1) (by simpa using h.2)
  rw [step_running h.1, this]

/-- The CPU phase while the program loads changes nothing (R67). -/
theorem cpuTick_loading {s : State} (hl : s.isLoading = true) : cpuTick s = .next s := by
  simp [cpuTick, hl]

/-- Everything a step can do: nothing while stopped; else the CPU phase, then the Memory and IC phases. -/
theorem step_cases {s t : State} (h : step s = .next t) :
    (s.running = false ∧ t = s) ∨
      (s.running = true ∧ ∃ u, cpuTick s.tickStart = .next u ∧ t = u.laterPhases) := by
  cases hr : s.running
  · rw [step_stopped hr] at h
    injection h with h
    exact .inl ⟨rfl, h.symm⟩
  · rw [step_running hr, andThen_eq_next] at h
    obtain ⟨u, hu, h⟩ := h
    injection h with h
    exact .inr ⟨rfl, u, hu, h.symm⟩

/-- What the Memory and IC phases leave alone: every register of the CPU. -/
theorem State.laterPhases_frame (s : State) :
    s.laterPhases =
      { s with
        cells := s.memoryTick.cells, mar := s.memoryTick.mar, mdr := s.memoryTick.mdr,
        readPending := s.memoryTick.readPending, writePending := s.memoryTick.writePending,
        programQueue := s.memoryTick.programQueue, loadAddress := s.memoryTick.loadAddress,
        isLoading := s.memoryTick.isLoading, readCompleted := s.memoryTick.readCompleted,
        pendingInterrupt := (winner s.waiting).or s.pendingInterrupt, waiting := [] } := by
  rw [State.laterPhases, State.icTick, State.memoryTick_frame]

/-- The arrivals of a tick are accepted one after another (R66, R113). -/
theorem State.acceptArrivals_eq_accept (s : State) :
    s.acceptArrivals = (s.arrivals.headD []).foldl State.accept { s with arrivals := s.arrivals.tail } := by
  have key : ∀ (l : List Interrupt) (u : State),
      l.foldl State.accept u = { u with waiting := u.waiting ++ l } := by
    intro l
    induction l with
    | nil => intro u; simp
    | cons i l ih => intro u; rw [List.foldl_cons, ih]; simp [State.accept]
  rw [key]; rfl

/-- A run of `m + n` steps is a run of `m`, then one of `n`. -/
theorem run_add (m n : Nat) (s : State) : run (m + n) s = andThen (run m s) (run n) := by
  induction m generalizing s with
  | zero => simp [run]
  | succ m ih =>
    rw [Nat.succ_add, run, run]
    cases step s <;> simp [andThen, ih]

end Sys2Proof.Machine
end

