-- ==== Sys2Proof/Laws/Frames.lean ====
section
/-! SUPPORT. What the operations with cases leave unchanged, one lemma per field, each from the operation's one frame
lemma. -/

namespace Sys2Proof.Machine

/-- The interrupt service changes `running`, `waiting` and the pending slot only (R116). -/
theorem State.service_frame (s : State) :
    s.service =
      { s with running := s.service.running, waiting := s.service.waiting, pendingInterrupt := none } := by
  unfold State.service
  split
  · split <;> rfl
  · cases s; simp only at *; subst_vars; rfl

/-! ## `service` -/

@[simp] theorem State.service_a (s : State) : (s.service).a = s.a :=
  (congrArg State.a s.service_frame).trans rfl
@[simp] theorem State.service_x (s : State) : (s.service).x = s.x :=
  (congrArg State.x s.service_frame).trans rfl
@[simp] theorem State.service_y (s : State) : (s.service).y = s.y :=
  (congrArg State.y s.service_frame).trans rfl
@[simp] theorem State.service_z (s : State) : (s.service).z = s.z :=
  (congrArg State.z s.service_frame).trans rfl
@[simp] theorem State.service_c (s : State) : (s.service).c = s.c :=
  (congrArg State.c s.service_frame).trans rfl
@[simp] theorem State.service_pc (s : State) : (s.service).pc = s.pc :=
  (congrArg State.pc s.service_frame).trans rfl
@[simp] theorem State.service_opcode (s : State) : (s.service).opcode = s.opcode :=
  (congrArg State.opcode s.service_frame).trans rfl
@[simp] theorem State.service_ir (s : State) : (s.service).ir = s.ir :=
  (congrArg State.ir s.service_frame).trans rfl
@[simp] theorem State.service_operand0 (s : State) : (s.service).operand0 = s.operand0 :=
  (congrArg State.operand0 s.service_frame).trans rfl
@[simp] theorem State.service_operand1 (s : State) : (s.service).operand1 = s.operand1 :=
  (congrArg State.operand1 s.service_frame).trans rfl
@[simp] theorem State.service_stage (s : State) : (s.service).stage = s.stage :=
  (congrArg State.stage s.service_frame).trans rfl
@[simp] theorem State.service_pulse (s : State) : (s.service).pulse = s.pulse :=
  (congrArg State.pulse s.service_frame).trans rfl
@[simp] theorem State.service_fetchCount (s : State) : (s.service).fetchCount = s.fetchCount :=
  (congrArg State.fetchCount s.service_frame).trans rfl
@[simp] theorem State.service_currentFetch (s : State) : (s.service).currentFetch = s.currentFetch :=
  (congrArg State.currentFetch s.service_frame).trans rfl
@[simp] theorem State.service_writeAddress (s : State) : (s.service).writeAddress = s.writeAddress :=
  (congrArg State.writeAddress s.service_frame).trans rfl
@[simp] theorem State.service_writeValue (s : State) : (s.service).writeValue = s.writeValue :=
  (congrArg State.writeValue s.service_frame).trans rfl
@[simp] theorem State.service_strPtr (s : State) : (s.service).strPtr = s.strPtr :=
  (congrArg State.strPtr s.service_frame).trans rfl
@[simp] theorem State.service_pendingInterrupt (s : State) : (s.service).pendingInterrupt = none :=
  (congrArg State.pendingInterrupt s.service_frame).trans rfl
@[simp] theorem State.service_useCarry (s : State) : (s.service).useCarry = s.useCarry :=
  (congrArg State.useCarry s.service_frame).trans rfl
@[simp] theorem State.service_debugLog (s : State) : (s.service).debugLog = s.debugLog :=
  (congrArg State.debugLog s.service_frame).trans rfl
@[simp] theorem State.service_cells (s : State) : (s.service).cells = s.cells :=
  (congrArg State.cells s.service_frame).trans rfl
@[simp] theorem State.service_mar (s : State) : (s.service).mar = s.mar :=
  (congrArg State.mar s.service_frame).trans rfl
@[simp] theorem State.service_mdr (s : State) : (s.service).mdr = s.mdr :=
  (congrArg State.mdr s.service_frame).trans rfl
@[simp] theorem State.service_readPending (s : State) : (s.service).readPending = s.readPending :=
  (congrArg State.readPending s.service_frame).trans rfl
@[simp] theorem State.service_writePending (s : State) : (s.service).writePending = s.writePending :=
  (congrArg State.writePending s.service_frame).trans rfl
@[simp] theorem State.service_programQueue (s : State) : (s.service).programQueue = s.programQueue :=
  (congrArg State.programQueue s.service_frame).trans rfl
@[simp] theorem State.service_loadAddress (s : State) : (s.service).loadAddress = s.loadAddress :=
  (congrArg State.loadAddress s.service_frame).trans rfl
@[simp] theorem State.service_isLoading (s : State) : (s.service).isLoading = s.isLoading :=
  (congrArg State.isLoading s.service_frame).trans rfl
@[simp] theorem State.service_out (s : State) : (s.service).out = s.out :=
  (congrArg State.out s.service_frame).trans rfl
@[simp] theorem State.service_faults (s : State) : (s.service).faults = s.faults :=
  (congrArg State.faults s.service_frame).trans rfl
@[simp] theorem State.service_tickCount (s : State) : (s.service).tickCount = s.tickCount :=
  (congrArg State.tickCount s.service_frame).trans rfl
@[simp] theorem State.service_readCompleted (s : State) : (s.service).readCompleted = s.readCompleted :=
  (congrArg State.readCompleted s.service_frame).trans rfl
@[simp] theorem State.service_arrivals (s : State) : (s.service).arrivals = s.arrivals :=
  (congrArg State.arrivals s.service_frame).trans rfl

/-! ## `memoryTick` -/

@[simp] theorem State.memoryTick_a (s : State) : (s.memoryTick).a = s.a :=
  (congrArg State.a s.memoryTick_frame).trans rfl
@[simp] theorem State.memoryTick_x (s : State) : (s.memoryTick).x = s.x :=
  (congrArg State.x s.memoryTick_frame).trans rfl
@[simp] theorem State.memoryTick_y (s : State) : (s.memoryTick).y = s.y :=
  (congrArg State.y s.memoryTick_frame).trans rfl
@[simp] theorem State.memoryTick_z (s : State) : (s.memoryTick).z = s.z :=
  (congrArg State.z s.memoryTick_frame).trans rfl
@[simp] theorem State.memoryTick_c (s : State) : (s.memoryTick).c = s.c :=
  (congrArg State.c s.memoryTick_frame).trans rfl
@[simp] theorem State.memoryTick_pc (s : State) : (s.memoryTick).pc = s.pc :=
  (congrArg State.pc s.memoryTick_frame).trans rfl
@[simp] theorem State.memoryTick_opcode (s : State) : (s.memoryTick).opcode = s.opcode :=
  (congrArg State.opcode s.memoryTick_frame).trans rfl
@[simp] theorem State.memoryTick_ir (s : State) : (s.memoryTick).ir = s.ir :=
  (congrArg State.ir s.memoryTick_frame).trans rfl
@[simp] theorem State.memoryTick_operand0 (s : State) : (s.memoryTick).operand0 = s.operand0 :=
  (congrArg State.operand0 s.memoryTick_frame).trans rfl
@[simp] theorem State.memoryTick_operand1 (s : State) : (s.memoryTick).operand1 = s.operand1 :=
  (congrArg State.operand1 s.memoryTick_frame).trans rfl
@[simp] theorem State.memoryTick_stage (s : State) : (s.memoryTick).stage = s.stage :=
  (congrArg State.stage s.memoryTick_frame).trans rfl
@[simp] theorem State.memoryTick_pulse (s : State) : (s.memoryTick).pulse = s.pulse :=
  (congrArg State.pulse s.memoryTick_frame).trans rfl
@[simp] theorem State.memoryTick_fetchCount (s : State) : (s.memoryTick).fetchCount = s.fetchCount :=
  (congrArg State.fetchCount s.memoryTick_frame).trans rfl
@[simp] theorem State.memoryTick_currentFetch (s : State) : (s.memoryTick).currentFetch = s.currentFetch :=
  (congrArg State.currentFetch s.memoryTick_frame).trans rfl
@[simp] theorem State.memoryTick_writeAddress (s : State) : (s.memoryTick).writeAddress = s.writeAddress :=
  (congrArg State.writeAddress s.memoryTick_frame).trans rfl
@[simp] theorem State.memoryTick_writeValue (s : State) : (s.memoryTick).writeValue = s.writeValue :=
  (congrArg State.writeValue s.memoryTick_frame).trans rfl
@[simp] theorem State.memoryTick_strPtr (s : State) : (s.memoryTick).strPtr = s.strPtr :=
  (congrArg State.strPtr s.memoryTick_frame).trans rfl
@[simp] theorem State.memoryTick_pendingInterrupt (s : State) : (s.memoryTick).pendingInterrupt = s.pendingInterrupt :=
  (congrArg State.pendingInterrupt s.memoryTick_frame).trans rfl
@[simp] theorem State.memoryTick_running (s : State) : (s.memoryTick).running = s.running :=
  (congrArg State.running s.memoryTick_frame).trans rfl
@[simp] theorem State.memoryTick_useCarry (s : State) : (s.memoryTick).useCarry = s.useCarry :=
  (congrArg State.useCarry s.memoryTick_frame).trans rfl
@[simp] theorem State.memoryTick_debugLog (s : State) : (s.memoryTick).debugLog = s.debugLog :=
  (congrArg State.debugLog s.memoryTick_frame).trans rfl
@[simp] theorem State.memoryTick_waiting (s : State) : (s.memoryTick).waiting = s.waiting :=
  (congrArg State.waiting s.memoryTick_frame).trans rfl
@[simp] theorem State.memoryTick_out (s : State) : (s.memoryTick).out = s.out :=
  (congrArg State.out s.memoryTick_frame).trans rfl
@[simp] theorem State.memoryTick_faults (s : State) : (s.memoryTick).faults = s.faults :=
  (congrArg State.faults s.memoryTick_frame).trans rfl
@[simp] theorem State.memoryTick_tickCount (s : State) : (s.memoryTick).tickCount = s.tickCount :=
  (congrArg State.tickCount s.memoryTick_frame).trans rfl
@[simp] theorem State.memoryTick_arrivals (s : State) : (s.memoryTick).arrivals = s.arrivals :=
  (congrArg State.arrivals s.memoryTick_frame).trans rfl

/-! ## `laterPhases` -/

@[simp] theorem State.laterPhases_a (s : State) : (s.laterPhases).a = s.a :=
  (congrArg State.a s.laterPhases_frame).trans rfl
@[simp] theorem State.laterPhases_x (s : State) : (s.laterPhases).x = s.x :=
  (congrArg State.x s.laterPhases_frame).trans rfl
@[simp] theorem State.laterPhases_y (s : State) : (s.laterPhases).y = s.y :=
  (congrArg State.y s.laterPhases_frame).trans rfl
@[simp] theorem State.laterPhases_z (s : State) : (s.laterPhases).z = s.z :=
  (congrArg State.z s.laterPhases_frame).trans rfl
@[simp] theorem State.laterPhases_c (s : State) : (s.laterPhases).c = s.c :=
  (congrArg State.c s.laterPhases_frame).trans rfl
@[simp] theorem State.laterPhases_pc (s : State) : (s.laterPhases).pc = s.pc :=
  (congrArg State.pc s.laterPhases_frame).trans rfl
@[simp] theorem State.laterPhases_opcode (s : State) : (s.laterPhases).opcode = s.opcode :=
  (congrArg State.opcode s.laterPhases_frame).trans rfl
@[simp] theorem State.laterPhases_ir (s : State) : (s.laterPhases).ir = s.ir :=
  (congrArg State.ir s.laterPhases_frame).trans rfl
@[simp] theorem State.laterPhases_operand0 (s : State) : (s.laterPhases).operand0 = s.operand0 :=
  (congrArg State.operand0 s.laterPhases_frame).trans rfl
@[simp] theorem State.laterPhases_operand1 (s : State) : (s.laterPhases).operand1 = s.operand1 :=
  (congrArg State.operand1 s.laterPhases_frame).trans rfl
@[simp] theorem State.laterPhases_stage (s : State) : (s.laterPhases).stage = s.stage :=
  (congrArg State.stage s.laterPhases_frame).trans rfl
@[simp] theorem State.laterPhases_pulse (s : State) : (s.laterPhases).pulse = s.pulse :=
  (congrArg State.pulse s.laterPhases_frame).trans rfl
@[simp] theorem State.laterPhases_fetchCount (s : State) : (s.laterPhases).fetchCount = s.fetchCount :=
  (congrArg State.fetchCount s.laterPhases_frame).trans rfl
@[simp] theorem State.laterPhases_currentFetch (s : State) : (s.laterPhases).currentFetch = s.currentFetch :=
  (congrArg State.currentFetch s.laterPhases_frame).trans rfl
@[simp] theorem State.laterPhases_writeAddress (s : State) : (s.laterPhases).writeAddress = s.writeAddress :=
  (congrArg State.writeAddress s.laterPhases_frame).trans rfl
@[simp] theorem State.laterPhases_writeValue (s : State) : (s.laterPhases).writeValue = s.writeValue :=
  (congrArg State.writeValue s.laterPhases_frame).trans rfl
@[simp] theorem State.laterPhases_strPtr (s : State) : (s.laterPhases).strPtr = s.strPtr :=
  (congrArg State.strPtr s.laterPhases_frame).trans rfl
@[simp] theorem State.laterPhases_pendingInterrupt (s : State) : (s.laterPhases).pendingInterrupt = (winner s.waiting).or s.pendingInterrupt :=
  (congrArg State.pendingInterrupt s.laterPhases_frame).trans rfl
@[simp] theorem State.laterPhases_running (s : State) : (s.laterPhases).running = s.running :=
  (congrArg State.running s.laterPhases_frame).trans rfl
@[simp] theorem State.laterPhases_useCarry (s : State) : (s.laterPhases).useCarry = s.useCarry :=
  (congrArg State.useCarry s.laterPhases_frame).trans rfl
@[simp] theorem State.laterPhases_debugLog (s : State) : (s.laterPhases).debugLog = s.debugLog :=
  (congrArg State.debugLog s.laterPhases_frame).trans rfl
@[simp] theorem State.laterPhases_cells (s : State) : (s.laterPhases).cells = s.memoryTick.cells :=
  (congrArg State.cells s.laterPhases_frame).trans rfl
@[simp] theorem State.laterPhases_mar (s : State) : (s.laterPhases).mar = s.memoryTick.mar :=
  (congrArg State.mar s.laterPhases_frame).trans rfl
@[simp] theorem State.laterPhases_mdr (s : State) : (s.laterPhases).mdr = s.memoryTick.mdr :=
  (congrArg State.mdr s.laterPhases_frame).trans rfl
@[simp] theorem State.laterPhases_readPending (s : State) : (s.laterPhases).readPending = s.memoryTick.readPending :=
  (congrArg State.readPending s.laterPhases_frame).trans rfl
@[simp] theorem State.laterPhases_writePending (s : State) : (s.laterPhases).writePending = s.memoryTick.writePending :=
  (congrArg State.writePending s.laterPhases_frame).trans rfl
@[simp] theorem State.laterPhases_programQueue (s : State) : (s.laterPhases).programQueue = s.memoryTick.programQueue :=
  (congrArg State.programQueue s.laterPhases_frame).trans rfl
@[simp] theorem State.laterPhases_loadAddress (s : State) : (s.laterPhases).loadAddress = s.memoryTick.loadAddress :=
  (congrArg State.loadAddress s.laterPhases_frame).trans rfl
@[simp] theorem State.laterPhases_isLoading (s : State) : (s.laterPhases).isLoading = s.memoryTick.isLoading :=
  (congrArg State.isLoading s.laterPhases_frame).trans rfl
@[simp] theorem State.laterPhases_waiting (s : State) : (s.laterPhases).waiting = [] :=
  (congrArg State.waiting s.laterPhases_frame).trans rfl
@[simp] theorem State.laterPhases_out (s : State) : (s.laterPhases).out = s.out :=
  (congrArg State.out s.laterPhases_frame).trans rfl
@[simp] theorem State.laterPhases_faults (s : State) : (s.laterPhases).faults = s.faults :=
  (congrArg State.faults s.laterPhases_frame).trans rfl
@[simp] theorem State.laterPhases_tickCount (s : State) : (s.laterPhases).tickCount = s.tickCount :=
  (congrArg State.tickCount s.laterPhases_frame).trans rfl
@[simp] theorem State.laterPhases_readCompleted (s : State) : (s.laterPhases).readCompleted = s.memoryTick.readCompleted :=
  (congrArg State.readCompleted s.laterPhases_frame).trans rfl
@[simp] theorem State.laterPhases_arrivals (s : State) : (s.laterPhases).arrivals = s.arrivals :=
  (congrArg State.arrivals s.laterPhases_frame).trans rfl

/-- AdvanceLoad queues a write and changes no cell (R47). -/
@[simp] theorem State.advanceLoad_cells (s : State) : s.advanceLoad.cells = s.cells :=
  (congrArg State.cells s.advanceLoad_frame).trans rfl

/-- The write half of the Memory phase stores MDR at MAR where a write is pending (R39). -/
theorem State.commitWrite_cells (s : State) :
    s.commitWrite.cells = if s.writePending = true then Memory.write s.cells s.mar.toNat s.mdr else s.cells := by
  unfold State.commitWrite
  split
  · dsimp only
    split
    · rw [State.advanceLoad_cells]; simp
    · simp
  · rfl

/-- The Memory phase stores MDR at MAR where a write is pending, and changes no other cell (R39). -/
theorem State.memoryTick_cells (s : State) :
    s.memoryTick.cells = if s.writePending = true then Memory.write s.cells s.mar.toNat s.mdr else s.cells := by
  rw [← State.commitWrite_cells]; rfl

/-- The read is served in every Memory phase, so none stays pending (R39). -/
@[simp] theorem State.memoryTick_readPending (s : State) : s.memoryTick.readPending = false := rfl

/-- A read completed in a Memory phase exactly when one was pending (R39). -/
@[simp] theorem State.memoryTick_readCompleted (s : State) : s.memoryTick.readCompleted = s.readPending := by
  have h : s.commitWrite.readPending = s.readPending := by
    unfold State.commitWrite
    split
    · dsimp only
      split
      · rw [State.advanceLoad_frame]; rfl
      · rfl
    · rfl
  exact h

/-- With no write pending the Memory phase changes no cell, no load register and no flag of the load (R39). -/
theorem State.memoryTick_of_noWrite {s : State} (h : s.writePending = false) :
    s.memoryTick.cells = s.cells ∧ s.memoryTick.writePending = false ∧ s.memoryTick.isLoading = s.isLoading ∧
      s.memoryTick.programQueue = s.programQueue := by
  simp [State.memoryTick, State.commitWrite, h]

/-- With a write pending and no load, the Memory phase stores MDR at MAR and leaves no write pending (R39). -/
theorem State.memoryTick_of_write {s : State} (h : s.writePending = true) (hl : s.isLoading = false) :
    s.memoryTick.cells = Memory.write s.cells s.mar.toNat s.mdr ∧ s.memoryTick.writePending = false ∧
      s.memoryTick.isLoading = false ∧ s.memoryTick.programQueue = s.programQueue := by
  simp [State.memoryTick, State.commitWrite, h, hl]

end Sys2Proof.Machine
end

