-- ==== Sys2Proof/Laws/PerInstr.lean ====
section
/-! SUPPORT. One lemma per constructor of Instr: its opcode byte is in the decode table under its own tag, and its
encoding has the length the table gives it (30_encoding.md R55, R60, R61). -/

namespace Sys2Proof.Laws.Encoding

/-- The decode table holds the instruction's opcode under its tag, and wherever the instruction is well formed its
encoding has one byte and the row's operand bytes (R61). -/
def Statement (i : Instr) : Prop :=
  ∃ row, lookupRow (opcodeOf i) = some row ∧ row.tag = tagOf i ∧
    ∀ x, i.wellFormed x = true → (encode i).length = 1 + operandBytes row.format x

theorem ldaImm (imm : Byte) : Statement (.ldaImm imm) := ⟨⟨0xA9#8, .imm, .ldaImm⟩, rfl, rfl, fun _ _ => rfl⟩

theorem ldaAbs (ea : Word) : Statement (.ldaAbs ea) := ⟨⟨0xAD#8, .abs, .ldaAbs⟩, rfl, rfl, fun _ _ => rfl⟩

theorem ldxImm (imm : Byte) : Statement (.ldxImm imm) := ⟨⟨0xA2#8, .imm, .ldxImm⟩, rfl, rfl, fun _ _ => rfl⟩

theorem ldxAbs (ea : Word) : Statement (.ldxAbs ea) := ⟨⟨0xAE#8, .abs, .ldxAbs⟩, rfl, rfl, fun _ _ => rfl⟩

theorem ldyImm (imm : Byte) : Statement (.ldyImm imm) := ⟨⟨0xA0#8, .imm, .ldyImm⟩, rfl, rfl, fun _ _ => rfl⟩

theorem ldyAbs (ea : Word) : Statement (.ldyAbs ea) := ⟨⟨0xAC#8, .abs, .ldyAbs⟩, rfl, rfl, fun _ _ => rfl⟩

theorem staAbs (ea : Word) : Statement (.staAbs ea) := ⟨⟨0x8D#8, .abs, .staAbs⟩, rfl, rfl, fun _ _ => rfl⟩

theorem txa : Statement .txa := ⟨⟨0x8A#8, .imp, .txa⟩, rfl, rfl, fun _ _ => rfl⟩

theorem tya : Statement .tya := ⟨⟨0x98#8, .imp, .tya⟩, rfl, rfl, fun _ _ => rfl⟩

theorem tax : Statement .tax := ⟨⟨0xAA#8, .imp, .tax⟩, rfl, rfl, fun _ _ => rfl⟩

theorem tay : Statement .tay := ⟨⟨0xA8#8, .imp, .tay⟩, rfl, rfl, fun _ _ => rfl⟩

theorem adcAbs (ea : Word) : Statement (.adcAbs ea) := ⟨⟨0x6D#8, .abs, .adcAbs⟩, rfl, rfl, fun _ _ => rfl⟩

theorem cpxAbs (ea : Word) : Statement (.cpxAbs ea) := ⟨⟨0xEC#8, .abs, .cpxAbs⟩, rfl, rfl, fun _ _ => rfl⟩

theorem incAbs (ea : Word) : Statement (.incAbs ea) := ⟨⟨0xEE#8, .abs, .incAbs⟩, rfl, rfl, fun _ _ => rfl⟩

theorem bne (rel : Byte) : Statement (.bne rel) := ⟨⟨0xD0#8, .rel, .bneRel⟩, rfl, rfl, fun _ _ => rfl⟩

theorem nop : Statement .nop := ⟨⟨0xEA#8, .imp, .nop⟩, rfl, rfl, fun _ _ => rfl⟩

theorem brk : Statement .brk := ⟨⟨0x00#8, .imp, .brk⟩, rfl, rfl, fun _ _ => rfl⟩

theorem sys (start : Option Word) : Statement (.sys start) := by
  refine ⟨⟨0xFF#8, .sys, .sys⟩, rfl, rfl, fun x h => ?_⟩
  cases start <;> simp_all [Instr.wellFormed, encode, operandsOf, operandBytes]

end Sys2Proof.Laws.Encoding
end

