-- ==== Sys2Proof/Tests/Slice0.lean ====
section
/-! SUPPORT. Tests on fixed values, each expected result from spec/95_test_vectors.md or worked out by hand from the rule
named, and for every obligation with hypotheses a witness that meets them together. -/

namespace Sys2Proof.Tests
open Sys2Proof Sys2Proof.Machine

/-! ## Well-formedness: what each check refuses (R60) -/

theorem test_wf_sys_needs_operand : Instr.wellFormed 0x03#8 (.sys none) = false := by decide

theorem test_wf_sys_refuses_operand : Instr.wellFormed 0x02#8 (.sys (some 0x0006#16)) = false := by decide

theorem test_wf_sys_both_forms :
    Instr.wellFormed 0x03#8 (.sys (some 0x0006#16)) = true ∧ Instr.wellFormed 0x01#8 (.sys none) = true := by decide

/-! ## Decoding: words written out from the encodings of R61, bit by bit, bits 7..0 of the opcode byte first -/

/-- The instruction a list of bytes decodes to while X holds `x`, and how many bytes are left. -/
def decoded (x : Byte) (bytes : List Byte) : Option (Instr × Nat) :=
  match decode x bytes with
  | .ok (i, rest) => some (i, rest.length)
  | .error _ => none

theorem test_decode_lda :
    decoded 0 [0b10101001#8, 0b00000101#8] = some (.ldaImm 0x05#8, 0) ∧
    decoded 0 [0b10101101#8, 0b00010000#8, 0b00000000#8] = some (.ldaAbs 0x0010#16, 0) := by decide

theorem test_decode_ldx :
    decoded 0 [0b10100010#8, 0b10000000#8] = some (.ldxImm 0x80#8, 0) ∧
    decoded 0 [0b10101110#8, 0b00110100#8, 0b00010010#8] = some (.ldxAbs 0x1234#16, 0) := by decide

theorem test_decode_ldy :
    decoded 0 [0b10100000#8, 0b00000000#8] = some (.ldyImm 0x00#8, 0) ∧
    decoded 0 [0b10101100#8, 0b00100000#8, 0b00000000#8] = some (.ldyAbs 0x0020#16, 0) := by decide

theorem test_decode_sta :
    decoded 0 [0b10001101#8, 0b01000000#8, 0b00000000#8] = some (.staAbs 0x0040#16, 0) := by decide

theorem test_decode_transfers :
    decoded 0 [0b10001010#8] = some (.txa, 0) ∧ decoded 0 [0b10011000#8] = some (.tya, 0) ∧
    decoded 0 [0b10101010#8] = some (.tax, 0) ∧ decoded 0 [0b10101000#8] = some (.tay, 0) := by decide

theorem test_decode_arith :
    decoded 0 [0b01101101#8, 0b00000000#8, 0b00000010#8] = some (.adcAbs 0x0200#16, 0) ∧
    decoded 0 [0b11101100#8, 0b00000000#8, 0b00000010#8] = some (.cpxAbs 0x0200#16, 0) ∧
    decoded 0 [0b11101110#8, 0b00000000#8, 0b00000010#8] = some (.incAbs 0x0200#16, 0) := by decide

theorem test_decode_control :
    decoded 0 [0b11010000#8, 0b11111110#8] = some (.bne 0xFE#8, 0) ∧ decoded 0 [0b11101010#8] = some (.nop, 0) ∧
    decoded 0 [0b00000000#8] = some (.brk, 0) := by decide

/-- `FF` takes two operand bytes where X = 3 and none where X = 1 or 2 (section 1.3 of the vectors). -/
theorem test_decode_sys :
    decoded 0x03#8 [0b11111111#8, 0b00000110#8, 0b00000000#8] = some (.sys (some 0x0006#16), 0) ∧
    decoded 0x01#8 [0b11111111#8, 0b00000110#8, 0b00000000#8] = some (.sys none, 2) ∧
    decoded 0x02#8 [0b11111111#8, 0b00000110#8, 0b00000000#8] = some (.sys none, 2) := by decide

theorem test_decode_undefined : decoded 0 [0x02#8, 0x00#8, 0x00#8] = none ∧ decoded 0 [0xA9#8] = none := by decide

/-! ## One step at a time -/

/-- The next state of an answer. -/
def nextOf (o : Answer) : Option State :=
  match o with
  | .next s => some s
  | .fault _ => none
  | .refused _ => none

/-- An Execute sub-pulse `k` at PC = 0x0103, the read before it completed. -/
def mid (k : Nat) : State :=
  { State.reset with running := true, stage := .execute, pulse := k, readCompleted := true, pc := 0x0103#16 }

/-- At an instruction boundary with the given memory and PC. -/
def ready (cells : List Host.Cell) (pc : Word) : State :=
  { State.reset with running := true, cells := cells, pc := pc }

/-- A running state in a stage other than Fetch. -/
def inStage (g : Stage) : State := { State.reset with running := true, stage := g }

/-- Vector L1: LDA #$00 leaves both flags. -/
theorem test_lda_imm_keeps_flags :
    (nextOf (exec (.ldaImm 0x00#8) { mid 1 with a := 0x55#8, z := true, c := true })).map
      (fun t => (t.a, t.z, t.c, t.stage)) = some (0x00#8, true, true, .interruptCheck) := by decide

/-- Vector L3: LDA from 0xFFFF, the read triggered in sub-pulse 1. -/
theorem test_lda_abs_top :
    (nextOf (exec (.ldaAbs 0xFFFF#16) (mid 1))).map (fun t => (t.mar, t.readPending, t.stage, t.pulse)) =
      some (0xFFFF#16, true, .execute, 1) ∧
    (nextOf (exec (.ldaAbs 0xFFFF#16) { mid 2 with mdr := 0x99#8 })).map (fun t => (t.a, t.stage)) =
      some (0x99#8, .interruptCheck) := by decide

/-- Vector L5. -/
theorem test_ldx_imm :
    (nextOf (exec (.ldxImm 0x80#8) { mid 1 with x := 0x01#8 })).map (fun t => (t.x, t.z)) =
      some (0x80#8, false) := by decide

/-- Vector L6. -/
theorem test_ldx_abs :
    (nextOf (exec (.ldxAbs 0x1234#16) { mid 2 with mdr := 0x7F#8 })).map (fun t => (t.a, t.x, t.y)) =
      some (0x00#8, 0x7F#8, 0x00#8) := by decide

/-- Vector L7: LDY #$00 does not set Z. -/
theorem test_ldy_imm :
    (nextOf (exec (.ldyImm 0x00#8) { mid 1 with y := 0x09#8 })).map (fun t => (t.y, t.z)) =
      some (0x00#8, false) := by decide

/-- Vector L8. -/
theorem test_ldy_abs :
    (nextOf (exec (.ldyAbs 0x0000#16) { mid 2 with mdr := 0xC3#8 })).map (fun t => (t.a, t.x, t.y)) =
      some (0x00#8, 0x00#8, 0xC3#8) := by decide

/-- Vector W4: the byte is committed in the Memory phase of the tick of sub-pulse 1. -/
theorem test_sta_commits_in_first_tick :
    (nextOf (step { mid 0 with ir := .staAbs, operand0 := 0x10#8, a := 0xFE#8 })).map
      (fun t => (t.cell 0x0010#16, t.writePending, t.pulse)) = some (0xFE#8, false, 1) := by decide

/-- Vector W1: the highest address. -/
theorem test_sta_top :
    (nextOf (exec (.staAbs 0xFFFF#16) { mid 1 with a := 0x42#8 })).map
      (fun t => (t.mar, t.mdr, t.writePending, t.readPending)) = some (0xFFFF#16, 0x42#8, true, false) := by decide

/-- Vector T1. -/
theorem test_txa :
    (nextOf (exec .txa { mid 1 with a := 0x01#8, x := 0x80#8, z := true, c := true })).map
      (fun t => (t.a, t.x, t.z, t.c)) = some (0x80#8, 0x80#8, true, true) := by decide

/-- Vector T2. -/
theorem test_tya :
    (nextOf (exec .tya { mid 1 with a := 0x01#8 })).map (fun t => (t.a, t.z)) = some (0x00#8, false) := by decide

/-- Vector T3. -/
theorem test_tax :
    (nextOf (exec .tax { mid 1 with a := 0x80#8, x := 0x03#8 })).map (fun t => (t.a, t.x)) =
      some (0x80#8, 0x80#8) := by decide

/-- Vector T4. -/
theorem test_tay :
    (nextOf (exec .tay { mid 1 with y := 0x05#8 })).map (fun t => (t.y, t.z)) = some (0x00#8, false) := by decide

/-- Vector AD2: 0xFF + 0xFF + 1. -/
theorem test_adc_with_carry :
    (nextOf (exec (.adcAbs 0x0200#16)
      { mid 2 with a := 0xFF#8, mdr := 0xFF#8, c := true, z := true, useCarry := true })).map
        (fun t => (t.a, t.c, t.z)) = some (0xFF#8, true, true) := by decide

/-- Vector AD4: the carry is ignored where USE_CARRY is false. -/
theorem test_adc_ignores_carry :
    (nextOf (exec (.adcAbs 0x0200#16) { mid 2 with a := 0xFF#8, mdr := 0x00#8, c := true, z := true })).map
      (fun t => (t.a, t.c, t.z)) = some (0xFF#8, false, true) := by decide

/-- Vector CX1. -/
theorem test_cpx_equal :
    (nextOf (exec (.cpxAbs 0x0200#16) { mid 2 with x := 0x42#8, mdr := 0x42#8 })).map (fun t => (t.z, t.c, t.x)) =
      some (true, true, 0x42#8) := by decide

/-- Vector CX5: the comparison is unsigned. -/
theorem test_cpx_unsigned :
    (nextOf (exec (.cpxAbs 0x0200#16) { mid 2 with x := 0x7F#8, mdr := 0x80#8 })).map (fun t => (t.z, t.c)) =
      some (false, false) := by decide

/-- Vector IN1: the value wraps, goes through Writeback, and no flag changes. -/
theorem test_inc_latches_write :
    (nextOf (exec (.incAbs 0x0200#16) { mid 2 with mdr := 0xFF#8, z := false, c := true })).map
      (fun t => (t.writeAddress, t.writeValue, t.stage, t.z, t.c)) =
        some (some 0x0200#16, some 0x00#8, .writeback, false, true) := by decide

/-- Vector IN3: value 0x01 at address 0x0000 is committed in the Writeback tick. -/
theorem test_inc_writeback :
    (nextOf (step { inStage .writeback with writeAddress := some 0x0000#16, writeValue := some 0x01#8 })).map
      (fun t => (t.cell 0x0000#16, t.writeAddress, t.writeValue, t.stage)) =
        some (0x01#8, none, none, .interruptCheck) := by decide

/-- Vector BN4: the target is modulo 65536. -/
theorem test_bne_wraps :
    (nextOf (exec (.bne 0x80#8) { mid 1 with pc := 0x0002#16 })).map (fun t => t.pc) = some 0xFF82#16 := by decide

/-- Vector BN2: not taken. -/
theorem test_bne_not_taken :
    (nextOf (exec (.bne 0x02#8) { mid 1 with pc := 0x0007#16, z := true })).map (fun t => t.pc) =
      some 0x0007#16 := by decide

/-- Vector NB1. -/
theorem test_nop :
    (nextOf (exec .nop { mid 1 with a := 0x03#8 })).map (fun t => (t.a, t.pc, t.stage)) =
      some (0x03#8, 0x0103#16, .interruptCheck) := by decide

/-- Vector NB2. -/
theorem test_brk :
    (nextOf (exec .brk { mid 1 with a := 0x03#8 })).map (fun t => (t.running, t.stage, t.pulse, t.a)) =
      some (false, .interruptCheck, 0, 0x03#8) := by decide

/-- Vector Y4: 0x64 prints as 100. -/
theorem test_sys_decimal :
    (nextOf (exec (.sys none) { mid 1 with x := 0x01#8, y := 0x64#8 })).map (fun t => t.out) =
      some [0x31#8, 0x30#8, 0x30#8] := by decide

/-- Vector Y15: the report, and the pipeline at Fetch. -/
theorem test_sys_invalid :
    (nextOf (exec (.sys none) { mid 1 with x := 0xFF#8, opcode := 0xFF#8, pc := 0x0101#16 })).map
      (fun t => (t.faults, t.stage, t.running)) =
        some ([⟨.invalidSyscall, 0xFF, 0x0101#16, 0xFF#8, .execute⟩], .fetch, true) := by decide

/-- The numeric codes of R104. -/
theorem test_fault_codes :
    [faultCode .unknownOpcode, faultCode .memoryOutOfRange, faultCode .invalidSyscall,
      faultCode .loadProtocolViolation] = [1, 2, 3, 4] := by decide

/-- Vector NB3: PC wraps at the capture of the byte at 0xFFFF. -/
theorem test_fetch_wraps_pc :
    (nextOf (step { ready [] 0xFFFF#16 with pulse := 1, readCompleted := true, mdr := 0xEA#8 })).map
      (fun t => (t.pc, t.opcode, t.stage)) = some (0x0000#16, 0xEA#8, .decode) := by decide

/-- Vector UO1. -/
theorem test_undefined_opcode :
    (nextOf (step { inStage .decode with opcode := 0x02#8, pc := 0x0101#16 })).map (fun t => (t.faults, t.stage)) =
      some ([⟨.unknownOpcode, 0x02, 0x0101#16, 0x02#8, .decode⟩], .fetch) := by decide

/-- Vector AR3: the first of the greatest priority. -/
theorem test_arbiter :
    winner [keyboardRecord 0x61#8, ⟨0x02#8, 3, .other, 0x62#8⟩, ⟨0x03#8, 3, .other, 0x63#8⟩] =
      some ⟨0x02#8, 3, .other, 0x62#8⟩ := by decide

/-- Vector AR4: a pending record is overwritten by an arrival. -/
theorem test_arrival_overwrites :
    (nextOf (step { ready [] 0 with
      pendingInterrupt := some (keyboardRecord 0x71#8), arrivals := [[keyboardRecord 0x61#8]] })).map
        (fun t => (t.pendingInterrupt, t.waiting)) = some (some (keyboardRecord 0x61#8), []) := by decide

/-- Vector LD1: one byte loads in one tick. -/
theorem test_load_one_byte :
    (nextOf (start [0x00#8] false false State.reset)).map
      (fun t => (t.mar, t.mdr, t.writePending, t.programQueue, t.loadAddress, t.isLoading)) =
        some (0x0000#16, 0x00#8, true, [], 0x0001#16, true) := by decide

/-- Nothing of the earlier run survives a restart, the Clock's count among it (R131). -/
theorem test_restart_clears :
    (nextOf (start [0x00#8] true false { State.reset with
      a := 0x55#8, tickCount := 35, out := [0x34#8], cells := [(64, 0x2A#8)] })).map
        (fun t => (t.a, t.tickCount, t.out, t.cells)) = some (0x00#8, 0, [], []) := by decide

/-- The placed row of SYS with two operand bytes, run as the first instruction after reset. -/
theorem test_placed_sys_wide :
    (nextOf (step (State.reset.withFetchWord 24 0x0006FF))).map (fun t => (t.strPtr, t.mar, t.pc)) =
      some (0x0006#16, 0x0006#16, 0x0003#16) := by decide

/-! ## Witnesses: states and operands that meet the hypotheses of each obligation together -/

theorem ready_boundary (cells : List Host.Cell) (pc : Word) : (ready cells pc).boundary := by
  constructor <;> rfl

theorem ready_inv (cells : List Host.Cell) (pc : Word) (h : Memory.wf cells) : (ready cells pc).Inv := by
  constructor
  · exact h
  all_goals simp [ready, State.reset, State.pulseTurn, State.phase, State.readTurn]


theorem witness_DecodeEncodeRoundTrip :
    Instr.wellFormed 0x03#8 (.sys (some 0xFFFF#16)) = true ∧ Instr.wellFormed 0x02#8 (.sys none) = true ∧
      Instr.wellFormed 0x00#8 (.ldaAbs 0xFFFF#16) = true := by decide

theorem witness_EncodeDecodeAgree :
    decode 0x03#8 [0xFF#8, 0x06#8, 0x00#8, 0x48#8] = .ok (.sys (some 0x0006#16), [0x48#8]) ∧
      decode 0x00#8 [0x00#8] = .ok (.brk, []) := ⟨rfl, rfl⟩

/-- Both clauses, where they meet: 0x00 and 0xFF are in the table, 0x01 and 0xFE are not. -/
theorem witness_UndefinedOpcodesRefused :
    (lookupRow 0x00#8).isSome = true ∧ (lookupRow 0xFF#8).isSome = true ∧ lookupRow 0x01#8 = none ∧
      lookupRow 0xFE#8 = none := by decide

theorem witness_ExecuteTickRunsExec :
    { inStage .execute with ir := .txa }.active ∧ { inStage .execute with ir := .txa }.phase = .execute ∧
      instrOfTag .txa 0x00#8 0x00#8 0x00#8 = some .txa := ⟨⟨rfl, rfl⟩, rfl, rfl⟩

theorem witness_FrontEndLatchesInstruction :
    (ready [(0, 0x05#8), (65535, 0xA9#8)] 0xFFFF#16).boundary ∧
      decode 0x00#8 (ready [(0, 0x05#8), (65535, 0xA9#8)] 0xFFFF#16).codeBytes = .ok (.ldaImm 0x05#8, [0x00#8]) :=
  ⟨ready_boundary _ _, rfl⟩

theorem witness_PlacedInstructionRunsNext :
    decode (tableX 24 0x0006FF 0x00#8) [tableByte 24 0x0006FF 0, tableByte 24 0x0006FF 1, tableByte 24 0x0006FF 2] =
      .ok (.sys (some 0x0006#16), []) := rfl

theorem witness_StoppedStepChangesNothing : State.reset.running = false := rfl

/-- Loading the program `A9 01 00`. -/
def loading : State := { State.reset with
  running := true, mdr := 0xA9#8, writePending := true, programQueue := [0x01#8, 0x00#8], loadAddress := 0x0001#16,
  isLoading := true }

theorem loading_is_start : start [0xA9#8, 0x01#8, 0x00#8] false false State.reset = .next loading := rfl

theorem witness_CpuIdleWhileLoading : loading.running = true ∧ loading.isLoading = true := ⟨rfl, rfl⟩

/-- The three clauses: both halves set, only the value set, only the address set. -/
theorem witness_DoneGoesToWritebackIffBothSet :
    { mid 1 with writeAddress := some 0x0000#16, writeValue := some 0x00#8 }.done.stage = .writeback ∧
      { mid 1 with writeValue := some 0x00#8 }.done.stage = .interruptCheck ∧
      { mid 1 with writeAddress := some 0x0000#16 }.done.stage = .interruptCheck := by decide

/-- Sub-pulse 1: the hypothesis of every one-sub-pulse result and of the first clause of the others. -/
theorem witness_LoadImmediateResult : (mid 1).pulse = 1 := rfl

/-- The hypotheses of the three clauses of a read operand. -/
theorem witness_LoadAbsoluteResult :
    ((mid 1).pulse = 1 ∧ (mid 1).writePending = false) ∧ ((mid 2).pulse = 2 ∧ (mid 2).readCompleted = true) :=
  ⟨⟨rfl, rfl⟩, rfl, rfl⟩

theorem witness_StoreAbsoluteResult :
    ((mid 1).pulse = 1 ∧ Memory.wf (mid 1).cells) ∧ (mid 2).pulse = 2 := by
  refine ⟨⟨rfl, ?_⟩, rfl⟩
  decide

theorem witness_TransferResult : (mid 1).pulse = 1 := rfl

theorem witness_AdcAbsoluteResult :
    ((mid 1).pulse = 1 ∧ (mid 1).writePending = false) ∧ ((mid 2).pulse = 2 ∧ (mid 2).readCompleted = true) :=
  ⟨⟨rfl, rfl⟩, rfl, rfl⟩

theorem witness_CpxAbsoluteResult :
    ((mid 1).pulse = 1 ∧ (mid 1).writePending = false) ∧ ((mid 2).pulse = 2 ∧ (mid 2).readCompleted = true) :=
  ⟨⟨rfl, rfl⟩, rfl, rfl⟩

/-- Sub-pulse 2 of INC answers a state that meets the hypotheses of the Writeback clause. -/
theorem witness_IncAbsoluteResult :
    ∃ t, exec (.incAbs 0xFFFF#16) (mid 2) = .next t ∧ (mid 2).pulse = 2 ∧ t.active ∧ t.phase = .writeback ∧
      t.readPending = false ∧ Memory.wf t.cells := by
  refine ⟨_, rfl, rfl, ⟨rfl, rfl⟩, rfl, rfl, ?_⟩
  decide

/-- Z false and Z true. -/
theorem witness_BneRelativeResult :
    ((mid 1).pulse = 1 ∧ (mid 1).z = false) ∧ ({ mid 1 with z := true }.pulse = 1 ∧ { mid 1 with z := true }.z = true) :=
  ⟨⟨rfl, rfl⟩, rfl, rfl⟩

theorem witness_NopResult : (mid 1).pulse = 1 := rfl

theorem witness_BrkResult : (mid 1).pulse = 1 := rfl

theorem witness_SysPrintsDecimal : (mid 1).pulse = 1 ∧ { mid 1 with x := 0x01#8 }.x = 0x01#8 := ⟨rfl, rfl⟩

/-- X = 0x00 and X = 0x04, the values next to the valid ones. -/
theorem witness_SysInvalidIsLogged :
    ((mid 1).pulse = 1 ∧ (mid 1).x ∉ [0x01#8, 0x02#8, 0x03#8] ∧ (mid 1).phase = .execute) ∧
      { mid 1 with x := 0x04#8 }.x ∉ [0x01#8, 0x02#8, 0x03#8] := by decide

/-- X = 2 and X = 3 in sub-pulses 1, 3 and 2, the last with the byte 0x00 and with another. -/
theorem witness_SysStringSubPulses :
    { mid 1 with x := 0x02#8 }.x = 0x02#8 ∧ { mid 1 with x := 0x03#8 }.x = 0x03#8 ∧
      ((mid 3).pulse ≠ 1 ∧ (mid 3).pulse % 2 = 1) ∧
      (0 < (mid 2).pulse ∧ (mid 2).pulse % 2 = 0 ∧ (mid 2).readCompleted = true ∧ (mid 2).mdr = 0x00#8) ∧
      { mid 2 with mdr := 0x48#8 }.mdr ≠ 0x00#8 := by decide

/-- Whatever the OPEN parameters, the pointer 0x0010 has the successor 0x0011, in both string prints. -/
theorem next_low (cross : PageCross) (atTop : StrWrap) :
    nextStrPtr cross atTop 0x02#8 0x0010#16 = some 0x0011#16 ∧ nextStrPtr cross atTop 0x02#8 0x0011#16 = some 0x0012#16 ∧
      nextStrPtr cross atTop 0x03#8 0x0010#16 = some 0x0011#16 ∧
      nextStrPtr cross atTop 0x03#8 0x0011#16 = some 0x0012#16 := by
  cases cross <;> cases atTop <;> decide

/-- At the top of memory a pointer has no successor under Fault and 0x0000 under Wrap: whichever value `STR_WRAP` has,
one of the last two clauses of SysStringSubPulses is met there. -/
theorem next_top (cross : PageCross) :
    nextStrPtr cross .fault 0x03#8 0xFFFF#16 = none ∧ nextStrPtr cross .wrap 0x03#8 0xFFFF#16 = some 0x0000#16 := by
  cases cross <;> decide

/-- The clauses of the pointer's successor where they meet. -/
theorem witness_StringPointerSuccessor :
    nextStrPtr .zeroPageWrap .fault 0x02#8 0x00FF#16 = some 0x0000#16 ∧
      nextStrPtr .linear .fault 0x02#8 0x00FF#16 = some 0x0100#16 ∧
      nextStrPtr .linear .fault 0x02#8 0xFFFE#16 = some 0xFFFF#16 ∧ nextStrPtr .linear .fault 0x02#8 0xFFFF#16 = none ∧
      nextStrPtr .zeroPageWrap .wrap 0x03#8 0xFFFF#16 = some 0x0000#16 := by decide

/-- Before the Writeback tick of an INC. -/
def writingBack : State :=
  { inStage .writeback with writeAddress := some 0x0000#16, writeValue := some 0x01#8 }

theorem writingBack_inv : writingBack.Inv := by
  constructor
  · decide
  all_goals simp [writingBack, inStage, State.reset, State.pulseTurn, State.phase]


theorem witness_WritebackCommitsDeferredWrite :
    writingBack.active ∧ writingBack.phase = .writeback ∧ writingBack.readPending = false ∧
      Memory.wf writingBack.cells ∧ writingBack.writeAddress = some 0x0000#16 ∧
      writingBack.writeValue = some 0x01#8 := by
  refine ⟨⟨rfl, rfl⟩, rfl, rfl, ?_, rfl, rfl⟩
  decide

/-- The frame statements: an instruction that answers a next state. NOP writes no flag and no register, ADC writes C. -/
theorem witness_FlagsWrittenOnlyByAdcAndCpx :
    (∃ t, exec .nop (mid 1) = .next t) ∧ (∃ t, exec (.adcAbs 0x0200#16) (mid 2) = .next t) :=
  ⟨⟨_, rfl⟩, _, rfl⟩

theorem witness_DataRegisterWriters :
    (∃ t, exec .nop (mid 1) = .next t) ∧ tagOf .nop ∉ [IrTag.ldaImm, .ldaAbs, .txa, .tya, .adcAbs] ∧
      tagOf .nop ∉ [IrTag.ldxImm, .ldxAbs, .tax] ∧ tagOf .nop ∉ [IrTag.ldyImm, .ldyAbs, .tay] :=
  ⟨⟨_, rfl⟩, by decide, by decide, by decide⟩

theorem witness_ControlRegisterFrame :
    (∃ t, exec .nop (mid 1) = .next t) ∧ tagOf .nop ≠ .bneRel ∧ tagOf .nop ≠ .incAbs ∧ tagOf .nop ≠ .brk ∧
      tagOf .nop ≠ .sys := ⟨⟨_, rfl⟩, by decide, by decide, by decide, by decide⟩

/-- Both cases: STA's first sub-pulse queues a write, NOP queues none. -/
theorem witness_ExecQueuesOnlyStoreOfSta :
    (∃ t, exec (.staAbs 0xFFFF#16) (mid 1) = .next t ∧ t.writePending = true) ∧
      (∃ t, exec .nop (mid 1) = .next t ∧ t.writePending = false) := ⟨⟨_, rfl, rfl⟩, _, rfl, rfl⟩

/-- Before the first Execute sub-pulse of `STA $FFFF`. -/
def storing : State :=
  { inStage .execute with ir := .staAbs, operand0 := 0xFF#8, operand1 := 0xFF#8, a := 0x42#8 }

theorem storing_inv : storing.Inv := by
  constructor
  · decide
  all_goals simp [storing, inStage, State.reset, State.pulseTurn, State.phase, State.executeTurn]


/-- A step that writes a cell, and one that writes none. -/
theorem witness_StepWritesOnlyTheLatchedCell :
    (storing.Inv ∧ storing.running = true ∧ ∃ t, step storing = .next t ∧ t.cell 0xFFFF#16 = 0x42#8) ∧
      ((ready [] 0x0000#16).Inv ∧ (ready [] 0x0000#16).running = true ∧ ∃ t, step (ready [] 0x0000#16) = .next t) :=
  ⟨⟨storing_inv, rfl, _, rfl, by decide⟩, ready_inv _ _ (by decide), rfl, _, rfl⟩

/-- PC moves by a capture at the top of memory, and by a taken BNE. -/
theorem witness_StepMovesPcOnlyByFetchOrBranch :
    (∃ t, step { ready [] 0xFFFF#16 with pulse := 1, readCompleted := true } = .next t ∧ t.pc ≠ 0xFFFF#16) ∧
      (∃ t, step { inStage .execute with ir := .bneRel, operand0 := 0x80#8, pc := 0x0002#16 } = .next t ∧
        t.pc ≠ 0x0002#16) :=
  ⟨⟨_, rfl, by decide⟩, _, rfl, by decide⟩

theorem witness_CarryConfigReadOnlyByAdc : tagOf (.cpxAbs 0x0200#16) ≠ .adcAbs := by decide

/-- Decode of the undefined byte 0x02. -/
def undefinedOpcode : State := { inStage .decode with opcode := 0x02#8, pc := 0x0101#16 }

theorem undefinedOpcode_inv : undefinedOpcode.Inv := by
  constructor
  · decide
  all_goals simp [undefinedOpcode, inStage, State.reset, State.pulseTurn, State.phase]


theorem witness_UnknownOpcodeIsLogged :
    undefinedOpcode.Inv ∧ undefinedOpcode.active ∧ undefinedOpcode.phase = .decode ∧
      lookupRow undefinedOpcode.opcode = none := ⟨undefinedOpcode_inv, ⟨rfl, rfl⟩, rfl, by decide⟩

/-- A step that logs a fault in Decode, one that logs one in Execute, and one that logs none. -/
theorem witness_FaultSources :
    (∃ t, step undefinedOpcode = .next t ∧ t.faults ≠ undefinedOpcode.faults) ∧
      (∃ t, step { inStage .execute with ir := .sys } = .next t ∧ t.faults ≠ []) ∧
      (∃ t, step (ready [] 0x0000#16) = .next t ∧ t.faults = []) :=
  ⟨⟨_, rfl, by decide⟩, ⟨_, rfl, by decide⟩, _, rfl, rfl⟩

/-- The third source, whatever `SYS2_PAGE_CROSS` is (vector Y11): under Fault the byte at 0xFFFF is printed and the fault
logged. -/
theorem witness_FaultSources_string (cross : PageCross) :
    (strByte cross .fault 0x41#8 { mid 2 with x := 0x03#8, strPtr := 0xFFFF#16, opcode := 0xFF#8, pc := 0x0203#16 }).faults =
        [⟨.memoryOutOfRange, 0x10000, 0x0203#16, 0xFF#8, .execute⟩] ∧
      (strByte cross .fault 0x41#8 { mid 2 with x := 0x03#8, strPtr := 0xFFFF#16 }).out = [0x41#8] := by
  cases cross <;> decide

theorem witness_FaultsArePrecise :
    undefinedOpcode.Inv ∧ ∃ t, step undefinedOpcode = .next t ∧ t.faults ≠ undefinedOpcode.faults :=
  ⟨undefinedOpcode_inv, _, rfl, by decide⟩

theorem witness_ArbiterPicksEarliestOfGreatestPriority :
    winner [keyboardRecord 0x61#8, keyboardRecord 0x51#8] = some (keyboardRecord 0x61#8) ∧ winner [] = none := by decide

/-- In InterruptCheck with `q` pending. -/
def quitting : State :=
  { inStage .interruptCheck with
    pendingInterrupt := some (keyboardRecord 0x71#8), arrivals := [[keyboardRecord 0x61#8]] }

theorem quitting_inv : quitting.Inv := by
  constructor
  · decide
  all_goals simp [quitting, inStage, State.reset, State.pulseTurn, State.phase]


/-- With another key pending the machine goes on: the case InterruptCheck. A boundary is the other case. -/
theorem witness_ArrivalsBecomePending :
    (({ quitting with pendingInterrupt := some (keyboardRecord 0x61#8) } : State).Inv ∧
      ∃ t, step { quitting with pendingInterrupt := some (keyboardRecord 0x61#8) } = .next t ∧ t.running = true) ∧
      ((ready [] 0x0000#16).Inv ∧ ∃ t, step (ready [] 0x0000#16) = .next t ∧ t.running = true) := by
  have h := quitting_inv
  exact ⟨⟨⟨h.cells, h.readPending, h.writePending, h.programQueue, h.loading, h.fetchBound, h.stalling, h.waiting,
    h.deferred, h.pulseTurn⟩, _, rfl, rfl⟩, ready_inv _ _ (by decide), _, rfl, rfl⟩

/-- The stop key, and another key: both with a record that arrives in the same tick. -/
theorem witness_InterruptCheckServesPending :
    (quitting.Inv ∧ quitting.active ∧ quitting.phase = .interruptCheck ∧
      ∃ t, step quitting = .next t ∧ t.running = false ∧ t.pendingInterrupt = none) ∧
    ∃ t, step { quitting with pendingInterrupt := some (keyboardRecord 0x70#8) } = .next t ∧ t.running = true ∧
      t.pendingInterrupt = some (keyboardRecord 0x61#8) :=
  ⟨⟨quitting_inv, ⟨rfl, rfl⟩, rfl, _, rfl, rfl, rfl⟩, _, rfl, rfl, rfl⟩

/-- At a boundary before NOP with `Q` pending. -/
def quitAtNop : State := { ready [(0, 0xEA#8)] 0x0000#16 with pendingInterrupt := some (keyboardRecord 0x51#8) }

theorem quitAtNop_boundary : quitAtNop.boundary := by constructor <;> rfl

theorem quitAtNop_inv : quitAtNop.Inv := by
  have h := ready_inv [(0, 0xEA#8)] 0x0000#16 (by decide)
  exact ⟨h.cells, h.readPending, h.writePending, h.programQueue, h.loading, h.fetchBound, h.stalling, h.waiting,
    h.deferred, h.pulseTurn⟩

theorem witness_PendingQuitStopsAfterInstruction :
    quitAtNop.Inv ∧ quitAtNop.boundary ∧
      decode quitAtNop.x quitAtNop.codeBytes = .ok (.nop, [0x00#8, 0x00#8]) ∧
      isStringPrint .nop quitAtNop.x = false ∧ (.nop : Instr) ≠ .brk ∧
      (tagOf .nop = .sys → quitAtNop.x = 0x01#8) ∧
      quitAtNop.pendingInterrupt = some (keyboardRecord 0x51#8) ∧ (keyboardRecord 0x51#8).device = .keyboard ∧
      (keyboardRecord 0x51#8).data = 0x51#8 ∧ (∀ l ∈ quitAtNop.arrivals.take (ticksOf .nop quitAtNop.x - 1), l = []) :=
  ⟨quitAtNop_inv, quitAtNop_boundary, rfl, rfl, by decide, by decide, rfl, rfl, rfl, by decide⟩

theorem witness_StartState : State.reset.running = false ∧ [0x00#8].length ≤ 65536 := by decide

/-- Running, too long, empty. -/
theorem witness_StartRefusalsAndEmptyProgram :
    loading.running = true ∧ State.reset.running = false ∧ 65536 < (List.replicate 65537 0x00#8).length := by
  refine ⟨rfl, rfl, ?_⟩
  rw [List.length_replicate]
  decide

theorem witness_ProgramLoadTakesOneTickPerByte :
    State.reset.running = false ∧ [0xA9#8, 0x01#8, 0x00#8] ≠ [] ∧ [0xA9#8, 0x01#8, 0x00#8].length ≤ 65536 ∧
      start [0xA9#8, 0x01#8, 0x00#8] false false State.reset = .next loading :=
  ⟨rfl, by decide, by decide, loading_is_start⟩

theorem witness_BrkEndsTheRun :
    (ready [] 0xFFFF#16).Inv ∧ (ready [] 0xFFFF#16).boundary ∧ (ready [] 0xFFFF#16).cell 0xFFFF#16 = 0x00#8 :=
  ⟨ready_inv _ _ (by decide), ready_boundary _ _, rfl⟩

theorem witness_StartEstablishesInvariant :
    (∃ t, start [0xA9#8, 0x01#8, 0x00#8] true false State.reset = .next t) ∧
      ∃ t, start [] true false State.reset = .next t := ⟨⟨_, rfl⟩, _, rfl⟩

/-- A step of a running machine in Writeback, which writes a cell. -/
theorem witness_StepKeepsInvariant :
    writingBack.Inv ∧ ∃ t, step writingBack = .next t ∧ t.cell 0x0000#16 = 0x01#8 :=
  ⟨writingBack_inv, _, rfl, by decide⟩

theorem witness_StepNeverStopsUnderInvariant : storing.Inv ∧ storing.running = true := ⟨storing_inv, rfl⟩

theorem witness_EqualMemoriesAreEqualLists :
    Memory.wf [(0, 0x01#8), (65535, 0x80#8)] ∧ ∀ a, Memory.read [(0, 0x01#8)] a = Memory.read [(0, 0x01#8)] a :=
  ⟨by decide, fun _ => rfl⟩

/-- INC of its own opcode byte, and BRK. -/
theorem witness_PipelineRefinesInstructionSummary :
    ((ready [(256, 0xEE#8), (258, 0x01#8)] 0x0100#16).Inv ∧
      (ready [(256, 0xEE#8), (258, 0x01#8)] 0x0100#16).boundary ∧
      decode 0x00#8 (ready [(256, 0xEE#8), (258, 0x01#8)] 0x0100#16).codeBytes = .ok (.incAbs 0x0100#16, []) ∧
      isStringPrint (.incAbs 0x0100#16) 0x00#8 = false) ∧
    decode 0x00#8 (ready [] 0xFFFF#16).codeBytes = .ok (.brk, [0x00#8, 0x00#8]) :=
  ⟨⟨ready_inv _ _ (by decide), ready_boundary _ _, rfl, rfl⟩, rfl⟩

/-- At a boundary before SYS with X = 2 and Y = 0x10, the string "HI" at 0x0010 (vector Y6). -/
def printing : State :=
  { ready [(16, 0x48#8), (17, 0x49#8), (256, 0xFF#8)] 0x0100#16 with x := 0x02#8, y := 0x10#8 }

theorem printing_boundary : printing.boundary := by constructor <;> rfl

theorem printing_inv : printing.Inv := by
  have h := ready_inv [(16, 0x48#8), (17, 0x49#8), (256, 0xFF#8)] 0x0100#16 (by decide)
  exact ⟨h.cells, h.readPending, h.writePending, h.programQueue, h.loading, h.fetchBound, h.stalling, h.waiting,
    h.deferred, h.pulseTurn⟩

/-- Both string prints: X = 2 as above, and X = 3 with the string at the operand; the walk is the same whatever the OPEN
parameters. -/
theorem witness_StringPrintEmitsItsString :
    (printing.Inv ∧ printing.boundary ∧ decode printing.x printing.codeBytes = .ok (.sys none, [0x00#8, 0x00#8]) ∧
      isStringPrint (.sys none) printing.x = true ∧
      stringAt printing.cells printing.x ((none : Option Word).getD (printing.y.setWidth 16)) [0x48#8, 0x49#8]) ∧
    (decode 0x03#8 [0xFF#8, 0x10#8, 0x00#8] = .ok (.sys (some 0x0010#16), []) ∧
      stringAt printing.cells 0x03#8 0x0010#16 [0x48#8, 0x49#8]) := by
  obtain ⟨h1, h2, h3, h4⟩ := next_low Config.sys2PageCross Config.strWrap
  exact ⟨⟨printing_inv, printing_boundary, rfl, rfl, rfl, by decide, _, h1, rfl, by decide, _, h2, rfl⟩,
    rfl, rfl, by decide, _, h3, rfl, by decide, _, h4, rfl⟩

/-- `STA $0200` and `LDA $0200` at 0x0000, with no interrupt pending or arriving. -/
def storeThenLoad : State :=
  ready [(0, 0x8D#8), (2, 0x02#8), (3, 0xAD#8), (5, 0x02#8)] 0x0000#16

theorem witness_StoreThenLoadReturnsValue :
    storeThenLoad.Inv ∧ storeThenLoad.boundary ∧ storeThenLoad.codeBytes = encode (.staAbs 0x0200#16) ∧
      [storeThenLoad.cell 3, storeThenLoad.cell 4, storeThenLoad.cell 5] = encode (.ldaAbs 0x0200#16) ∧
      (0x0200#16 : Word) ∉ [storeThenLoad.pc + 3, storeThenLoad.pc + 4, storeThenLoad.pc + 5] ∧
      (nextOf (run 10 storeThenLoad)).map (fun t => t.running) = some true :=
  ⟨ready_inv _ _ (by decide), ready_boundary _ _, by decide, by decide, by decide, by decide⟩

end Sys2Proof.Tests
end

section
/-! PROOFS. The two inputs of a run, USE_CARRY and DEBUG (00_scope.md R7): every operation of a tick commutes with a
change of DEBUG, and every micro-op but ADC's with a change of USE_CARRY too. `Function.Semiconj op` of the change says
so of an operation, and it follows the operation's own shape: a sequence, a branch, a read of MDR. -/

namespace Sys2Proof.Machine

/-- `s` with its configuration changed: `f` acts on USE_CARRY and `g` on DEBUG, `id` keeping the one it acts on. -/
def State.mapConfig (f g : Bool → Bool) (s : State) : State :=
  { s with useCarry := f s.useCarry, debugLog := g s.debugLog }

/-- An answer with the configuration of its next state changed. -/
def Answer.mapConfig (f g : Bool → Bool) (o : Answer) : Answer := andThen o (fun t => .next (t.mapConfig f g))

/-- `op` answers the same in a changed configuration, but for the change itself. -/
abbrev CommutesWithConfig (f g : Bool → Bool) (op : State → Answer) : Prop :=
  Function.Semiconj op (State.mapConfig f g) (Answer.mapConfig f g)

/-- A branch commutes with a change that its condition does not see, where both of its sides do. -/
theorem semiconj_ite {α β : Type} {p : α → Prop} [DecidablePred p] {ga : α → α} {gb : β → β} {op₁ op₂ : α → β}
    (hp : ∀ a, p (ga a) ↔ p a) (h₁ : Function.Semiconj op₁ ga gb) (h₂ : Function.Semiconj op₂ ga gb) :
    Function.Semiconj (fun a => if p a then op₁ a else op₂ a) ga gb := by
  intro a
  by_cases h : p a
  · simp only [if_pos h, if_pos ((hp a).2 h), h₁ a]
  · simp only [if_neg h, if_neg (mt (hp a).1 h), h₂ a]

section
variable {f g : Bool → Bool}

/-! ## The operations on the state that have branches -/

theorem State.service_mapConfig : Function.Commute State.service (State.mapConfig f g) := by
  intro s
  have hpending : (s.mapConfig f g).pendingInterrupt = s.pendingInterrupt := rfl
  unfold State.service
  rw [hpending]
  split
  · split <;> rfl
  · rfl

theorem State.advanceLoad_mapConfig : Function.Commute State.advanceLoad (State.mapConfig f g) := by
  intro s
  have hqueue : (s.mapConfig f g).programQueue = s.programQueue := rfl
  unfold State.advanceLoad
  rw [hqueue]
  split <;> rfl

theorem State.commitWrite_mapConfig : Function.Commute State.commitWrite (State.mapConfig f g) :=
  semiconj_ite (fun _ => Iff.rfl)
    (semiconj_ite (fun _ => Iff.rfl)
      (fun s => advanceLoad_mapConfig { s.setCell s.mar s.mdr with writePending := false }) (fun _ => rfl))
    (fun _ => rfl)

theorem State.laterPhases_mapConfig : Function.Commute State.laterPhases (State.mapConfig f g) := by
  have hread : Function.Commute State.serveRead (State.mapConfig f g) := fun _ => rfl
  have hic : Function.Commute State.icTick (State.mapConfig f g) := fun _ => rfl
  exact hic.comp_left (hread.comp_left commitWrite_mapConfig)

theorem State.done_mapConfig : Function.Commute State.done (State.mapConfig f g) := fun _ => rfl

theorem strByte_mapConfig (cross : PageCross) (atTop : StrWrap) (b : Byte) :
    Function.Commute (strByte cross atTop b) (State.mapConfig f g) := by
  intro s
  have hnext : nextStrPtr cross atTop (s.mapConfig f g).x (s.mapConfig f g).strPtr =
      nextStrPtr cross atTop s.x s.strPtr := rfl
  unfold strByte
  rw [hnext]
  split
  · rfl
  · split <;> rfl

/-! ## The shapes of micro-op -/

/-- Going on with a next state commutes where the next state does. -/
theorem next_mapConfig {op : State → State} (h : Function.Commute op (State.mapConfig f g)) :
    CommutesWithConfig f g (fun s => .next (op s)) :=
  fun s => congrArg Host.Outcome.next (h s)

/-- `Mdr()` reads no configuration, so the rest of the rule decides. -/
theorem withMdr_mapConfig {k : Byte → State → Answer} (hk : ∀ m, CommutesWithConfig f g (k m)) :
    CommutesWithConfig f g (fun s => withMdr s (fun m => k m s)) :=
  semiconj_ite (fun _ => Iff.rfl) (fun s => hk s.mdr s) (fun _ => rfl)

theorem onePulse_mapConfig {act : State → State} (hact : Function.Commute act (State.mapConfig f g)) :
    CommutesWithConfig f g (fun s => onePulse s act) :=
  semiconj_ite (fun _ => Iff.rfl) (next_mapConfig (State.done_mapConfig.comp_left hact)) (fun _ => rfl)

theorem readThen_mapConfig (ea : Word) {act : Byte → State → State}
    (hact : ∀ m, Function.Commute (act m) (State.mapConfig f g)) :
    CommutesWithConfig f g (fun s => readThen s ea act) :=
  semiconj_ite (fun _ => Iff.rfl) (fun _ => rfl)
    (semiconj_ite (fun _ => Iff.rfl)
      (withMdr_mapConfig (fun m => next_mapConfig (State.done_mapConfig.comp_left (hact m))))
      (fun _ => rfl))

/-! ## The micro-ops of more than those shapes, and all of them -/

theorem execStaAbs_mapConfig (ea : Word) : CommutesWithConfig f g (execStaAbs ea) :=
  semiconj_ite (fun _ => Iff.rfl) (fun _ => rfl) (semiconj_ite (fun _ => Iff.rfl) (fun _ => rfl) (fun _ => rfl))

theorem sysInvalid_mapConfig : CommutesWithConfig f g sysInvalid :=
  semiconj_ite (fun _ => Iff.rfl) (fun _ => rfl) (fun _ => rfl)

theorem sysString_mapConfig (cross : PageCross) (atTop : StrWrap) (start : Word) :
    CommutesWithConfig f g (sysString cross atTop start) :=
  semiconj_ite (fun _ => Iff.rfl) (fun _ => rfl)
    (semiconj_ite (fun _ => Iff.rfl) (fun _ => rfl)
      (semiconj_ite (fun _ => Iff.rfl) (fun _ => rfl)
        (withMdr_mapConfig (fun b => next_mapConfig (strByte_mapConfig cross atTop b)))))

theorem execSys_mapConfig (start : Option Word) : CommutesWithConfig f g (execSys start) :=
  semiconj_ite (fun _ => Iff.rfl) (onePulse_mapConfig (fun _ => rfl))
    (semiconj_ite (fun _ => Iff.rfl) (fun s => sysString_mapConfig _ _ (zext16 s.y) s)
      (semiconj_ite (fun _ => Iff.rfl) (fun s => sysString_mapConfig _ _ (start.getD s.ea) s)
        sysInvalid_mapConfig))

/-- ADC's is the one micro-op that reads USE_CARRY, and none reads DEBUG (R7, R13). -/
theorem exec_mapConfig {i : Instr} (h : tagOf i ≠ .adcAbs ∨ f = id) : CommutesWithConfig f g (exec i) := by
  cases i with
  | adcAbs ea =>
    obtain rfl : f = id := h.resolve_left (fun hne => hne rfl)
    exact readThen_mapConfig ea (fun _ _ => rfl)
  | staAbs ea => exact execStaAbs_mapConfig ea
  | sys start => exact execSys_mapConfig start
  | ldaAbs ea | ldxAbs ea | ldyAbs ea | cpxAbs ea | incAbs ea => exact readThen_mapConfig ea (fun _ _ => rfl)
  | ldaImm _ | ldxImm _ | ldyImm _ | txa | tya | tax | tay | bne _ | nop | brk =>
    exact onePulse_mapConfig (fun _ => rfl)

/-! ## The phases of an instruction, the tick and the step -/

theorem fetchStage_mapConfig : CommutesWithConfig f g fetchStage :=
  semiconj_ite (fun _ => Iff.rfl) (fun _ => rfl)
    (semiconj_ite (fun _ => Iff.rfl) (withMdr_mapConfig (fun _ => next_mapConfig (fun _ => rfl))) (fun _ => rfl))

theorem stall_mapConfig : CommutesWithConfig f g stall :=
  semiconj_ite (fun _ => Iff.rfl) (fun _ => rfl)
    (semiconj_ite (fun _ => Iff.rfl) (withMdr_mapConfig (fun _ => next_mapConfig (fun _ => rfl))) (fun _ => rfl))

theorem decodeStage_mapConfig : CommutesWithConfig f g decodeStage := by
  intro s
  have hopcode : (s.mapConfig f g).opcode = s.opcode := rfl
  unfold decodeStage
  rw [hopcode]
  split <;> rfl

theorem executeStage_mapConfig : CommutesWithConfig id g executeStage := by
  intro s
  let t := s.mapConfig id g
  have hinstr : instrOfTag t.ir t.x t.operand0 t.operand1 = instrOfTag s.ir s.x s.operand0 s.operand1 := rfl
  unfold executeStage
  rw [hinstr]
  split
  · exact exec_mapConfig (.inr rfl) s
  · rfl

theorem writebackStage_mapConfig : CommutesWithConfig f g writebackStage := by
  intro s
  have haddress : (s.mapConfig f g).writeAddress = s.writeAddress := rfl
  have hvalue : (s.mapConfig f g).writeValue = s.writeValue := rfl
  unfold writebackStage
  rw [haddress, hvalue]
  split <;> rfl

theorem interruptCheckStage_mapConfig : CommutesWithConfig f g interruptCheckStage := by
  have hgoto : Function.Commute (fun s : State => s.goto .fetch) (State.mapConfig f g) := fun _ => rfl
  exact next_mapConfig (hgoto.comp_left State.service_mapConfig)

theorem runPhase_mapConfig : CommutesWithConfig id g runPhase := by
  intro s
  have hphase : (s.mapConfig id g).phase = s.phase := rfl
  unfold runPhase
  rw [hphase]
  split
  · exact stall_mapConfig s
  · exact fetchStage_mapConfig s
  · exact decodeStage_mapConfig s
  · exact executeStage_mapConfig s
  · exact writebackStage_mapConfig s
  · exact interruptCheckStage_mapConfig s

theorem cpuTick_mapConfig : CommutesWithConfig id g cpuTick :=
  semiconj_ite (fun _ => Iff.rfl) (fun _ => rfl) (fun s => runPhase_mapConfig s.nextPulse)

theorem tick_mapConfig : CommutesWithConfig id g tick := by
  intro s
  have hcpu : cpuTick (s.mapConfig id g).tickStart = (cpuTick s.tickStart).mapConfig id g :=
    cpuTick_mapConfig s.tickStart
  unfold tick
  rw [hcpu]
  cases cpuTick s.tickStart with
  | next t => exact next_mapConfig State.laterPhases_mapConfig t
  | fault _ => rfl
  | refused _ => rfl

/-- No step reads DEBUG, whatever the change `g` of it. -/
theorem step_mapConfig : CommutesWithConfig id g step :=
  semiconj_ite (fun _ => Iff.rfl) tick_mapConfig (fun _ => rfl)

end

/-- Settles O32: setting USE_CARRY is a change of the configuration, with which every micro-op but ADC's commutes. -/
theorem carryConfigReadOnlyByAdc : Obligations.CarryConfigReadOnlyByAdc :=
  fun _ b s h => exec_mapConfig (f := fun _ => b) (g := id) (.inl h) s

/-- Settles O33: setting DEBUG is a change of the configuration that keeps USE_CARRY, with which a step commutes. -/
theorem debugHasNoEffect : Obligations.DebugHasNoEffect :=
  fun b s => step_mapConfig (g := fun _ => b) s

end Sys2Proof.Machine
end

section
/-! PROOFS. Stopped steps, and memory as a list (10_state.md R25, R26). -/

namespace Sys2Proof.Machine

/-! ## A memory in canonical form is determined by what it reads (R26) -/

theorem Memory.read_head (p : Host.Cell) (m : List Host.Cell) : Memory.read (p :: m) p.1 = p.2 :=
  if_pos rfl

theorem Memory.read_tail {p : Host.Cell} {a : Nat} (h : p.1 ≠ a) (m : List Host.Cell) :
    Memory.read (p :: m) a = Memory.read m a :=
  if_neg h

/-- Below the head of a canonical memory everything reads as unlisted, but the head itself does not. -/
theorem Memory.head_le_head {p q : Host.Cell} {m n : List Host.Cell} (hm : Memory.wf (p :: m))
    (hn : Memory.wf (q :: n)) (hread : ∀ a, Memory.read (p :: m) a = Memory.read (q :: n) a) : q.1 ≤ p.1 := by
  obtain ⟨⟨-, hp⟩, -⟩ := Memory.wf_cons.1 hm
  obtain ⟨-, hlt, -⟩ := Memory.wf_cons.1 hn
  by_contra hpq
  have hunlisted : Memory.read (q :: n) p.1 = Memory.unlisted :=
    Memory.read_of_lt (List.forall_mem_cons.2 ⟨by omega, fun r hr => by have := hlt r hr; omega⟩)
  exact hp ((Memory.read_head p m).symm.trans ((hread p.1).trans hunlisted))

theorem Memory.eq_of_read_eq {m n : List Host.Cell} (hm : Memory.wf m) (hn : Memory.wf n)
    (hread : ∀ a, Memory.read m a = Memory.read n a) : m = n := by
  induction m generalizing n with
  | nil =>
    cases n with
    | nil => rfl
    | cons q n =>
      obtain ⟨⟨-, hq⟩, -⟩ := Memory.wf_cons.1 hn
      exact absurd ((Memory.read_head q n).symm.trans (hread q.1).symm) hq
  | cons p m ih =>
    cases n with
    | nil =>
      obtain ⟨⟨-, hp⟩, -⟩ := Memory.wf_cons.1 hm
      exact absurd ((Memory.read_head p m).symm.trans (hread p.1)) hp
    | cons q n =>
      have haddr : p.1 = q.1 :=
        le_antisymm (Memory.head_le_head hn hm (fun a => (hread a).symm)) (Memory.head_le_head hm hn hread)
      have hbyte : p.2 = q.2 := by
        rw [← Memory.read_head p m, hread, haddr, Memory.read_head]
      obtain ⟨-, hltm, hm⟩ := Memory.wf_cons.1 hm
      obtain ⟨-, hltn, hn⟩ := Memory.wf_cons.1 hn
      have htail : ∀ a, Memory.read m a = Memory.read n a := by
        intro a
        by_cases ha : p.1 = a
        · subst ha
          rw [Memory.read_of_lt hltm, Memory.read_of_lt (haddr ▸ hltn)]
        · rw [← Memory.read_tail ha, hread, Memory.read_tail (haddr ▸ ha)]
      rw [Prod.ext haddr hbyte, ih hm hn htail]

/-- Settles O50, by induction on the two lists: equal reads give equal heads, and then equal reads of the tails. -/
theorem equalMemoriesAreEqualLists : Obligations.EqualMemoriesAreEqualLists :=
  fun _ _ => Memory.eq_of_read_eq

/-- Settles O8. -/
theorem stoppedStepChangesNothing : Obligations.StoppedStepChangesNothing :=
  fun _ => step_stopped

end Sys2Proof.Machine
end

section
/-! PROOFS. The part of the invariant (10_state.md R32) that speaks of the pipeline, and the invariant after reset and
after Start. -/

namespace Sys2Proof.Machine

/-! ## The phase outside the stall is the stage (R19) -/

/-- The phase of a stage. -/
def Stage.phase (g : Stage) : Phase :=
  match g with
  | .fetch => .fetch
  | .decode => .decode
  | .execute => .execute
  | .writeback => .writeback
  | .interruptCheck => .interruptCheck

theorem Stage.phase_injective : Function.Injective Stage.phase := by
  intro g g'
  cases g <;> cases g' <;> decide

theorem State.phase_eq (s : State) :
    s.phase = if 0 < s.fetchCount ∧ s.currentFetch < s.fetchCount then .operandFetch else s.stage.phase := rfl

/-- The phase is a function of the stage and the fetch counters (R19). -/
theorem State.phase_congr {s t : State} (hstage : t.stage = s.stage) (hf : t.fetchCount = s.fetchCount)
    (hc : t.currentFetch = s.currentFetch) : t.phase = s.phase := by
  simp only [State.phase_eq, hstage, hf, hc]

theorem Stage.phase_ne_operandFetch (g : Stage) : g.phase ≠ .operandFetch := by
  cases g <;> exact Phase.noConfusion

/-- The stall goes before every stage (R19). -/
theorem State.phase_eq_operandFetch_iff {s : State} :
    s.phase = .operandFetch ↔ 0 < s.fetchCount ∧ s.currentFetch < s.fetchCount := by
  rw [State.phase_eq]
  split
  · simpa
  · exact iff_of_false s.stage.phase_ne_operandFetch ‹_›

theorem State.phase_of_fetchCount {s : State} (h : s.fetchCount = 0) : s.phase = s.stage.phase := by
  rw [State.phase_eq, if_neg (by omega)]

/-! ## The pipeline's part of the invariant -/

/-- The part of the invariant that speaks of the fetch counters and the deferred write (R21, R22). -/
structure State.CountersInv (s : State) : Prop where
  fetchBound : s.currentFetch ≤ s.fetchCount ∧ s.fetchCount ≤ 2
  stalling : 0 < s.fetchCount → s.currentFetch < s.fetchCount ∧ s.stage = .execute
  deferred : s.writeAddress.isSome = (s.stage == .writeback) ∧ s.writeValue.isSome = (s.stage == .writeback)

/-- The part of the invariant that speaks of the pipeline (R20 to R22). -/
structure State.PipelineInv (s : State) : Prop extends s.CountersInv where
  pulseTurn : s.pulseTurn

/-- No operand fetch is in progress and no deferred write is set. -/
structure State.Quiet (s : State) : Prop where
  fetchCount : s.fetchCount = 0
  currentFetch : s.currentFetch = 0
  writeAddress : s.writeAddress = none
  writeValue : s.writeValue = none

section
variable {s : State}

/-- No stage but Writeback has a deferred write (R22). -/
theorem State.CountersInv.deferred_none (h : s.CountersInv) (hstage : s.stage ≠ .writeback) :
    s.writeAddress = none ∧ s.writeValue = none := by
  simpa [beq_eq_false_iff_ne.2 hstage] using h.deferred

/-- Outside the stall no operand byte is outstanding, so the phase is the stage (R19, R21). -/
theorem State.CountersInv.stage_of_phase (h : s.CountersInv) {g : Stage} (hp : s.phase = g.phase) :
    s.stage = g ∧ s.fetchCount = 0 ∧ s.currentFetch = 0 := by
  have hstall : ¬(0 < s.fetchCount ∧ s.currentFetch < s.fetchCount) :=
    mt State.phase_eq_operandFetch_iff.2 (hp ▸ g.phase_ne_operandFetch)
  have hf : s.fetchCount = 0 := by
    by_contra hpos
    exact hstall ⟨by omega, (h.stalling (by omega)).1⟩
  have hstage : s.stage = g := Stage.phase_injective ((State.phase_of_fetchCount hf).symm.trans hp)
  exact ⟨hstage, hf, by have := h.fetchBound.1; omega⟩

/-- Outside the stall and Writeback the pipeline is quiet. -/
theorem State.CountersInv.quiet (h : s.CountersInv) {g : Stage} (hp : s.phase = g.phase) (hg : g ≠ .writeback) :
    s.stage = g ∧ s.Quiet := by
  obtain ⟨hstage, hf, hc⟩ := h.stage_of_phase hp
  obtain ⟨ha, hv⟩ := h.deferred_none (hstage ▸ hg)
  exact ⟨hstage, hf, hc, ha, hv⟩

/-- In the stall an operand byte is outstanding and no write is deferred (R21, R22). -/
theorem State.CountersInv.stall (h : s.CountersInv) (hp : s.phase = .operandFetch) :
    s.currentFetch < s.fetchCount ∧ s.stage = .execute ∧ s.writeAddress = none ∧ s.writeValue = none := by
  obtain ⟨hpos, hstall⟩ := State.phase_eq_operandFetch_iff.1 hp
  obtain ⟨-, hstage⟩ := h.stalling hpos
  exact ⟨hstall, hstage, h.deferred_none (by simp [hstage])⟩

theorem State.Quiet.pipelineInv (h : s.Quiet) (hstage : s.stage ≠ .writeback) (hturn : s.pulseTurn) :
    s.PipelineInv where
  fetchBound := by simp [h.fetchCount, h.currentFetch]
  stalling := by simp [h.fetchCount]
  deferred := by simp [h.writeAddress, h.writeValue, hstage]
  pulseTurn := hturn

theorem State.Quiet.pipelineInv_fetch (h : s.Quiet) (hstage : s.stage = .fetch) (hturn : s.readTurn) :
    s.PipelineInv :=
  h.pipelineInv (by simp [hstage])
    (by simpa [State.pulseTurn, State.phase_of_fetchCount h.fetchCount, hstage, Stage.phase] using hturn)

theorem State.Quiet.pipelineInv_execute (h : s.Quiet) (hstage : s.stage = .execute) (hturn : s.executeTurn) :
    s.PipelineInv :=
  h.pipelineInv (by simp [hstage])
    (by simpa [State.pulseTurn, State.phase_of_fetchCount h.fetchCount, hstage, Stage.phase] using hturn)

/-- A stage of one sub-pulse is entered with the count at 0 (R69). -/
theorem State.Quiet.pipelineInv_start (h : s.Quiet) (hstage : s.stage = .decode ∨ s.stage = .interruptCheck)
    (hpulse : s.pulse = 0) : s.PipelineInv := by
  rcases hstage with hstage | hstage <;>
  exact h.pipelineInv (by simp [hstage])
    (by simpa [State.pulseTurn, State.phase_of_fetchCount h.fetchCount, hstage, Stage.phase] using hpulse)

/-- Every micro-op may begin with the count at 0 (R74). -/
theorem State.executeTurn_of_pulse (hpulse : s.pulse = 0) (hir : s.ir ≠ .none) : s.executeTurn := by
  unfold State.executeTurn State.readTurn
  split <;> simp_all

/-- A string print may go on where its next sub-pulse has its byte (R99). -/
theorem State.executeTurn_of_string (hir : s.ir = .sys) (hx : s.x = 0x02#8 ∨ s.x = 0x03#8)
    (hturn : s.pulse % 2 = 1 → s.readCompleted = true) : s.executeTurn := by
  unfold State.executeTurn
  rw [hir]
  exact (if_pos hx).mpr hturn

/-- In the stall the operand bytes are still to come (R71). -/
theorem State.pipelineInv_of_stall (hstall : s.currentFetch < s.fetchCount) (hbound : s.fetchCount ≤ 2)
    (hstage : s.stage = .execute) (hir : s.ir ≠ .none) (hturn : s.readTurn) (haddress : s.writeAddress = none)
    (hvalue : s.writeValue = none) : s.PipelineInv where
  fetchBound := ⟨hstall.le, hbound⟩
  stalling := fun _ => ⟨hstall, hstage⟩
  deferred := by simp [haddress, hvalue, hstage]
  pulseTurn := by
    have hp : s.phase = .operandFetch := State.phase_eq_operandFetch_iff.2 ⟨by omega, hstall⟩
    simpa [State.pulseTurn, hp] using ⟨hir, hturn⟩

/-- Execute is entered with the operand bytes still to come, or with all of them there (R71, R73). -/
theorem State.pipelineInv_of_executeStart
    (hcount : s.currentFetch < s.fetchCount ∨ (s.fetchCount = 0 ∧ s.currentFetch = 0)) (hbound : s.fetchCount ≤ 2)
    (hstage : s.stage = .execute) (hir : s.ir ≠ .none) (hpulse : s.pulse = 0) (haddress : s.writeAddress = none)
    (hvalue : s.writeValue = none) : s.PipelineInv := by
  obtain hstall | ⟨hf, hc⟩ := hcount
  · exact State.pipelineInv_of_stall hstall hbound hstage hir (.inl hpulse) haddress hvalue
  · exact State.Quiet.pipelineInv_execute ⟨hf, hc, haddress, hvalue⟩ hstage (State.executeTurn_of_pulse hpulse hir)

/-- The Memory and IC phases touch neither the counters nor the deferred write. -/
theorem State.Quiet.laterPhases (h : s.Quiet) : s.laterPhases.Quiet := by
  obtain ⟨hf, hc, ha, hv⟩ := h
  exact ⟨by simpa, by simpa, by simpa, by simpa⟩

end

/-! ## The start of a Fetch, after reset and after Start -/

/-- The pipeline is about to begin a Fetch: the pipeline part of `State.boundary`, whatever runs or loads (R78). -/
structure State.FetchStart (s : State) : Prop extends s.Quiet where
  stage : s.stage = .fetch
  pulse : s.pulse = 0

/-- At the start of a Fetch the invariant speaks of the Memory unit, the load and the waiting list alone. -/
theorem State.FetchStart.inv {s : State} (h : s.FetchStart) (hcells : Memory.wf s.cells)
    (hread : s.readPending = false) (hwrite : s.writePending = s.isLoading)
    (hqueue : s.isLoading = false → s.programQueue = []) (hwaiting : s.waiting = []) : s.Inv :=
  have hpipe : s.PipelineInv := h.toQuiet.pipelineInv_fetch h.stage (.inl h.pulse)
  { cells := hcells
    readPending := hread
    writePending := hwrite
    programQueue := hqueue
    loading := fun _ => ⟨h.stage, h.pulse⟩
    fetchBound := hpipe.fetchBound
    stalling := hpipe.stalling
    waiting := hwaiting
    deferred := hpipe.deferred
    pulseTurn := hpipe.pulseTurn }

/-- Settles O46: after reset the pipeline is at the start of a Fetch. -/
theorem invariantAtReset : Obligations.InvariantAtReset :=
  State.FetchStart.inv ⟨⟨rfl, rfl, rfl, rfl⟩, rfl, rfl⟩ (by decide) rfl rfl (fun _ => rfl) rfl

/-- Every part of the machine but the MMU and `running` as an accepted Start leaves it (R127). -/
def State.startReset (s : State) (useCarry debugLog : Bool) : State :=
  ({ s with useCarry := useCarry, debugLog := debugLog }).cpuReset.clockReset

/-- Everything an accepted Start can do (R127, R129). -/
theorem start_cases {p : List Byte} {useCarry debugLog : Bool} {s t : State}
    (h : start p useCarry debugLog s = .next t) :
    (p = [] ∧ t = (s.startReset useCarry debugLog).mmuReset) ∨
      ∃ b rest, p = b :: rest ∧
        t = { (s.startReset useCarry debugLog).setProgram (b :: rest) with running := true } := by
  unfold start at h
  split at h
  · cases h
  · split at h
    · cases h
    · cases p with
      | nil => cases h; exact .inl ⟨rfl, rfl⟩
      | cons b rest => cases h; exact .inr ⟨b, rest, rfl, rfl⟩

/-- Settles O47: Start leaves the pipeline at the start of a Fetch and memory empty, and of a program its first byte
queued to be written. -/
theorem startEstablishesInvariant : Obligations.StartEstablishesInvariant := by
  intro p useCarry debugLog s t h
  have hnil : Memory.wf [] := by decide
  obtain ⟨-, rfl⟩ | ⟨b, rest, -, rfl⟩ := start_cases h
  · exact State.FetchStart.inv ⟨⟨rfl, rfl, rfl, rfl⟩, rfl, rfl⟩ hnil rfl rfl (fun _ => rfl) rfl
  · exact State.FetchStart.inv ⟨⟨rfl, rfl, rfl, rfl⟩, rfl, rfl⟩ hnil rfl rfl (fun hidle => nomatch hidle) rfl

end Sys2Proof.Machine
end

section
/-! PROOFS. What one Execute sub-pulse can do, said once (40_pipeline.md R74, 41 to 43), and the frames of the registers
that follow from it. -/

namespace Sys2Proof.Machine

/-- The address that the micro-op of an instruction reads at its first sub-pulse (R44). -/
def readAddress (i : Instr) : Option Word :=
  match i with
  | .ldaAbs ea | .ldxAbs ea | .ldyAbs ea | .adcAbs ea | .cpxAbs ea | .incAbs ea => some ea
  | _ => none

/-- The sub-pulse in which the micro-op of an instruction other than SYS is done (R79 to R96). -/
def lastPulse (i : Instr) : Nat :=
  match i with
  | .ldaAbs _ | .ldxAbs _ | .ldyAbs _ | .adcAbs _ | .cpxAbs _ | .incAbs _ | .staAbs _ => 2
  | _ => 1

/-- What the micro-op of an instruction other than SYS does in its last sub-pulse, before `done`, `m` being the byte in
MDR (R79 to R96). -/
def lastAction (i : Instr) (m : Byte) (s : State) : State :=
  match i with
  | .ldaImm imm => { s with a := imm }
  | .ldaAbs _ => { s with a := m }
  | .ldxImm imm => { s with x := imm }
  | .ldxAbs _ => { s with x := m }
  | .ldyImm imm => { s with y := imm }
  | .ldyAbs _ => { s with y := m }
  | .txa => { s with a := s.x }
  | .tya => { s with a := s.y }
  | .tax => { s with x := s.a }
  | .tay => { s with y := s.a }
  | .adcAbs _ => { s with c := adcCarry s.useCarry s.c s.a m, a := adcResult s.useCarry s.c s.a m }
  | .cpxAbs _ => { s with z := cpxZ s.x m, c := cpxC s.x m }
  | .incAbs ea => { s with writeAddress := some ea, writeValue := some (incResult m) }
  | .bne rel => { s with pc := if s.z then s.pc else branchTarget s.pc rel }
  | .brk => s.stop
  | .staAbs _ | .nop | .sys _ => s

/-- Where a string print starts (R100, R101). -/
def State.stringStart (s : State) (start : Option Word) : Word :=
  if s.x = 0x02#8 then zext16 s.y else start.getD s.ea

/-- The states that one Execute sub-pulse of an instruction can answer, with the sub-pulse that answers each (R74). -/
inductive ExecStep (s : State) : Instr → State → Prop where
  /-- The first sub-pulse of a micro-op that reads its operand (R44). -/
  | read {i : Instr} {ea : Word} : readAddress i = some ea → s.pulse = 1 → ExecStep s i (s.triggerRead ea)
  /-- The first sub-pulse of STA (R85). -/
  | store {ea : Word} : s.pulse = 1 → ExecStep s (.staAbs ea) (s.writeImmediate ea s.a)
  /-- The last sub-pulse of an instruction other than SYS (R79 to R96). -/
  | finish {i : Instr} : tagOf i ≠ .sys → s.pulse = lastPulse i → ExecStep s i (lastAction i s.mdr s).done
  /-- SYS with X = 1 (R98). -/
  | printInt {start : Option Word} : s.x = 0x01#8 → s.pulse = 1 →
      ExecStep s (.sys start) (s.emit (decimal s.y)).done
  /-- SYS with any other X (R102). -/
  | invalid {start : Option Word} : s.x ∉ [0x01#8, 0x02#8, 0x03#8] → s.pulse = 1 →
      ExecStep s (.sys start) (s.raise .invalidSyscall s.x.toNat)
  /-- A string print begins (R100, R101). -/
  | stringFirst {start : Option Word} : s.x = 0x02#8 ∨ s.x = 0x03#8 → s.pulse = 1 →
      ExecStep s (.sys start) ({ s with strPtr := s.stringStart start }.triggerRead (s.stringStart start))
  /-- A string print reads on (R99). -/
  | stringRead {start : Option Word} : s.x = 0x02#8 ∨ s.x = 0x03#8 → s.pulse ≠ 1 → s.pulse % 2 = 1 →
      ExecStep s (.sys start) (s.triggerRead s.strPtr)
  /-- A string print ends at 0x00 (R99). -/
  | stringEnd {start : Option Word} : s.x = 0x02#8 ∨ s.x = 0x03#8 → s.pulse % 2 = 0 → s.mdr = 0x00#8 →
      ExecStep s (.sys start) s.done
  /-- A string print emits a byte and moves on (R99). -/
  | stringByte {start : Option Word} {p : Word} : s.x = 0x02#8 ∨ s.x = 0x03#8 → s.pulse % 2 = 0 →
      s.mdr ≠ 0x00#8 → nextStrPtr Config.sys2PageCross Config.strWrap s.x s.strPtr = some p →
      ExecStep s (.sys start) { s.emit [s.mdr] with strPtr := p }
  /-- A string print emits a byte at the last address (R99, R107). -/
  | stringOverrun {start : Option Word} : s.x = 0x02#8 ∨ s.x = 0x03#8 → s.pulse % 2 = 0 →
      s.mdr ≠ 0x00#8 → nextStrPtr Config.sys2PageCross Config.strWrap s.x s.strPtr = none →
      ExecStep s (.sys start) ((s.emit [s.mdr]).raise .memoryOutOfRange 0x10000)

/-! ## Every answer of `exec` is one of these -/

theorem execStep_of_onePulse {i : Instr} {s t : State} (hi : tagOf i ≠ .sys) (hp : lastPulse i = 1)
    (h : onePulse s (lastAction i s.mdr) = .next t) : ExecStep s i t := by
  obtain ⟨hpulse, rfl⟩ := onePulse_eq_next.1 h
  exact .finish hi (hpulse.trans hp.symm)

theorem execStep_of_readThen {i : Instr} {s t : State} {ea : Word} (hi : tagOf i ≠ .sys)
    (hea : readAddress i = some ea) (hp : lastPulse i = 2) (h : readThen s ea (lastAction i) = .next t) :
    ExecStep s i t := by
  obtain ⟨hpulse, rfl⟩ | ⟨hpulse, -, rfl⟩ := readThen_eq_next.1 h
  · exact .read hea hpulse
  · exact .finish hi (hpulse.trans hp.symm)

theorem execStep_of_execStaAbs {s t : State} {ea : Word} (h : execStaAbs ea s = .next t) :
    ExecStep s (.staAbs ea) t := by
  unfold execStaAbs at h
  split at h
  · cases h; exact .store ‹_›
  · split at h
    · cases h; exact .finish (by simp [tagOf]) ‹_›
    · cases h

theorem execStep_of_sysString {s t : State} {start : Option Word} (hx : s.x = 0x02#8 ∨ s.x = 0x03#8)
    (h : sysString Config.sys2PageCross Config.strWrap (s.stringStart start) s = .next t) :
    ExecStep s (.sys start) t := by
  unfold sysString at h
  split at h
  · cases h
  split at h
  · cases h; exact .stringFirst hx ‹_›
  split at h
  · cases h; exact .stringRead hx ‹_› ‹_›
  have heven : s.pulse % 2 = 0 := by omega
  obtain ⟨-, h⟩ := withMdr_eq_next.1 h
  unfold strByte at h
  split at h
  · cases h; exact .stringEnd hx heven ‹_›
  split at h
  · cases h; exact .stringByte hx heven ‹_› ‹_›
  · cases h; exact .stringOverrun hx heven ‹_› ‹_›

theorem execStep_of_execSys {s t : State} {start : Option Word} (h : execSys start s = .next t) :
    ExecStep s (.sys start) t := by
  unfold execSys at h
  split at h
  · obtain ⟨hpulse, rfl⟩ := onePulse_eq_next.1 h
    exact .printInt ‹_› hpulse
  split at h
  next hx => exact execStep_of_sysString (.inl hx) (by rw [State.stringStart, if_pos hx]; exact h)
  split at h
  next hx2 hx => exact execStep_of_sysString (.inr hx) (by rw [State.stringStart, if_neg hx2]; exact h)
  unfold sysInvalid at h
  split at h
  · cases h; exact .invalid (by simp [*]) ‹_›
  · cases h

/-- Everything one Execute sub-pulse can do (R74). -/
theorem exec_cases {i : Instr} {s t : State} (h : exec i s = .next t) : ExecStep s i t := by
  cases i with
  | staAbs ea => exact execStep_of_execStaAbs h
  | sys start => exact execStep_of_execSys h
  | ldaAbs ea | ldxAbs ea | ldyAbs ea | adcAbs ea | cpxAbs ea | incAbs ea =>
    exact execStep_of_readThen (by simp [tagOf]) rfl rfl h
  | ldaImm _ | ldxImm _ | ldyImm _ | txa | tya | tax | tay | bne _ | nop | brk =>
    exact execStep_of_onePulse (by simp [tagOf]) rfl h

/-! ## The frames: who writes each register -/

section
variable {i : Instr} {s t : State}

theorem ExecStep.z_eq (h : ExecStep s i t) (hi : ∀ ea, i ≠ .cpxAbs ea) : t.z = s.z := by
  cases h with
  | finish =>
    cases i with
    | cpxAbs ea => exact absurd rfl (hi ea)
    | _ => rfl
  | _ => rfl

theorem ExecStep.c_eq (h : ExecStep s i t) (hc : ∀ ea, i ≠ .cpxAbs ea) (ha : ∀ ea, i ≠ .adcAbs ea) : t.c = s.c := by
  cases h with
  | finish =>
    cases i with
    | cpxAbs ea => exact absurd rfl (hc ea)
    | adcAbs ea => exact absurd rfl (ha ea)
    | _ => rfl
  | _ => rfl

theorem ExecStep.a_eq (h : ExecStep s i t) (hi : tagOf i ∉ [IrTag.ldaImm, .ldaAbs, .txa, .tya, .adcAbs]) :
    t.a = s.a := by
  cases h with
  | finish =>
    cases i with
    | ldaImm _ | ldaAbs _ | txa | tya | adcAbs _ => simp [tagOf] at hi
    | _ => rfl
  | _ => rfl

theorem ExecStep.x_eq (h : ExecStep s i t) (hi : tagOf i ∉ [IrTag.ldxImm, .ldxAbs, .tax]) : t.x = s.x := by
  cases h with
  | finish =>
    cases i with
    | ldxImm _ | ldxAbs _ | tax => simp [tagOf] at hi
    | _ => rfl
  | _ => rfl

theorem ExecStep.y_eq (h : ExecStep s i t) (hi : tagOf i ∉ [IrTag.ldyImm, .ldyAbs, .tay]) : t.y = s.y := by
  cases h with
  | finish =>
    cases i with
    | ldyImm _ | ldyAbs _ | tay => simp [tagOf] at hi
    | _ => rfl
  | _ => rfl

theorem ExecStep.pc_eq (h : ExecStep s i t) (hi : tagOf i ≠ .bneRel) : t.pc = s.pc := by
  cases h with
  | finish =>
    cases i with
    | bne _ => exact absurd rfl hi
    | _ => rfl
  | _ => rfl

/-- BNE moves PC to its target where Z is false (R94). -/
theorem ExecStep.bne_pc {rel : Byte} (h : ExecStep s (.bne rel) t) :
    t.pc = if s.z then s.pc else branchTarget s.pc rel := by
  cases h with
  | read hea => cases hea
  | finish => rfl

theorem ExecStep.deferred_eq (h : ExecStep s i t) (hinc : tagOf i ≠ .incAbs) (hsys : tagOf i ≠ .sys) :
    t.writeAddress = s.writeAddress ∧ t.writeValue = s.writeValue := by
  cases h with
  | read | store => exact ⟨rfl, rfl⟩
  | finish =>
    cases i with
    | incAbs _ => exact absurd rfl hinc
    | _ => exact ⟨rfl, rfl⟩
  | _ => exact absurd rfl hsys

theorem ExecStep.running_eq (h : ExecStep s i t) (hi : tagOf i ≠ .brk) :
    t.running = s.running ∧ t.waiting = s.waiting := by
  cases h with
  | finish =>
    cases i with
    | brk => exact absurd rfl hi
    | _ => exact ⟨rfl, rfl⟩
  | _ => exact ⟨rfl, rfl⟩

theorem ExecStep.output_eq (h : ExecStep s i t) (hi : tagOf i ≠ .sys) :
    t.strPtr = s.strPtr ∧ t.out = s.out ∧ t.faults = s.faults := by
  cases h with
  | read | store => exact ⟨rfl, rfl, rfl⟩
  | finish => cases i <;> exact ⟨rfl, rfl, rfl⟩
  | _ => exact absurd rfl hi

/-- What no Execute sub-pulse writes: the cells, the opcode, IR and the operand latches, the pending interrupt, the
configuration, the load, the Clock and the arrivals. -/
theorem ExecStep.frame (h : ExecStep s i t) :
    t.cells = s.cells ∧ t.opcode = s.opcode ∧ t.ir = s.ir ∧ t.operand0 = s.operand0 ∧ t.operand1 = s.operand1 ∧
      t.pendingInterrupt = s.pendingInterrupt ∧ t.useCarry = s.useCarry ∧ t.debugLog = s.debugLog ∧
      t.programQueue = s.programQueue ∧ t.loadAddress = s.loadAddress ∧ t.isLoading = s.isLoading ∧
      t.arrivals = s.arrivals ∧ t.tickCount = s.tickCount := by
  cases h with
  | store => simp
  | finish => cases i <;> exact ⟨rfl, rfl, rfl, rfl, rfl, rfl, rfl, rfl, rfl, rfl, rfl, rfl, rfl⟩
  | _ => exact ⟨rfl, rfl, rfl, rfl, rfl, rfl, rfl, rfl, rfl, rfl, rfl, rfl, rfl⟩

end

/-- Settles O26, from what one Execute sub-pulse can do. -/
theorem flagsWrittenOnlyByAdcAndCpx : Obligations.FlagsWrittenOnlyByAdcAndCpx := by
  intro i s t h
  exact ⟨(exec_cases h).z_eq, (exec_cases h).c_eq⟩

/-- Settles O27, from what one Execute sub-pulse can do. -/
theorem dataRegisterWriters : Obligations.DataRegisterWriters := by
  intro i s t h
  exact ⟨(exec_cases h).a_eq, (exec_cases h).x_eq, (exec_cases h).y_eq⟩

/-- Settles O28, from what one Execute sub-pulse can do. -/
theorem controlRegisterFrame : Obligations.ControlRegisterFrame := by
  intro i s t h
  have hstep := exec_cases h
  exact ⟨hstep.pc_eq, hstep.deferred_eq, hstep.running_eq, hstep.output_eq, hstep.frame.2⟩

end Sys2Proof.Machine
end

section
/-! PROOFS. What the acting CPU phase of a tick can do, said once (40_pipeline.md R70 to R76), and how it moves PC. -/

namespace Sys2Proof.Machine

/-! ## Every answer of the phases -/

/-- The states that one sub-pulse of the current phase can answer (R70 to R76). -/
inductive PhaseStep (s : State) : State → Prop where
  /-- The first sub-pulse of a Fetch (R72). -/
  | fetchRead : s.phase = .fetch → s.pulse = 1 → PhaseStep s (s.triggerRead s.pc)
  /-- The second sub-pulse of a Fetch (R72). -/
  | fetchCapture : s.phase = .fetch → s.pulse = 2 → PhaseStep s ((s.captureOpcode s.mdr).goto .decode)
  /-- The first sub-pulse of an operand fetch (R71). -/
  | operandRead : s.phase = .operandFetch → s.pulse = 1 → PhaseStep s (s.triggerRead s.pc)
  /-- The second sub-pulse of an operand fetch (R71). -/
  | operandCapture : s.phase = .operandFetch → s.pulse = 2 → PhaseStep s (s.captureOperand s.mdr)
  /-- Any other sub-pulse of a Fetch or an operand fetch, which no run reaches (log entry 8). -/
  | idle : s.phase = .fetch ∨ s.phase = .operandFetch → s.pulse ≠ 1 → s.pulse ≠ 2 → PhaseStep s s
  /-- Decode of an undefined opcode (R73, R106). -/
  | undefinedOpcode : s.phase = .decode → lookupRow s.opcode = none →
      PhaseStep s (s.raise .unknownOpcode s.opcode.toNat)
  /-- Decode of an opcode of the table (R73). -/
  | decode {row : DecodeRow} : s.phase = .decode → lookupRow s.opcode = some row →
      PhaseStep s ((s.decoded row).goto .execute)
  /-- A sub-pulse of Execute (R74). -/
  | execute {i : Instr} {t : State} : s.phase = .execute → instrOfTag s.ir s.x s.operand0 s.operand1 = some i →
      ExecStep s i t → PhaseStep s t
  /-- Writeback of a deferred write (R75). -/
  | writeback {a : Word} {v : Byte} : s.phase = .writeback → s.writeAddress = some a → s.writeValue = some v →
      PhaseStep s ((s.clearDeferred.goto .interruptCheck).writeImmediate a v)
  /-- Writeback with a half of the deferred write missing, which no run reaches (R75). -/
  | noWriteback : s.phase = .writeback → ¬(s.writeAddress.isSome ∧ s.writeValue.isSome) →
      PhaseStep s (s.goto .interruptCheck)
  /-- The interrupt service (R76). -/
  | interruptCheck : s.phase = .interruptCheck → PhaseStep s (s.service.goto .fetch)

theorem phaseStep_of_fetchStage {s t : State} (hp : s.phase = .fetch) (h : fetchStage s = .next t) :
    PhaseStep s t := by
  unfold fetchStage at h
  split at h
  · cases h; exact .fetchRead hp ‹_›
  split at h
  · obtain ⟨-, h⟩ := withMdr_eq_next.1 h
    cases h; exact .fetchCapture hp ‹_›
  · cases h; exact .idle (.inl hp) ‹_› ‹_›

theorem phaseStep_of_stall {s t : State} (hp : s.phase = .operandFetch) (h : stall s = .next t) :
    PhaseStep s t := by
  unfold stall at h
  split at h
  · cases h; exact .operandRead hp ‹_›
  split at h
  · obtain ⟨-, h⟩ := withMdr_eq_next.1 h
    cases h; exact .operandCapture hp ‹_›
  · cases h; exact .idle (.inr hp) ‹_› ‹_›

theorem phaseStep_of_decodeStage {s t : State} (hp : s.phase = .decode) (h : decodeStage s = .next t) :
    PhaseStep s t := by
  unfold decodeStage at h
  split at h
  · cases h; exact .undefinedOpcode hp ‹_›
  · cases h; exact .decode hp ‹_›

theorem phaseStep_of_executeStage {s t : State} (hp : s.phase = .execute) (h : executeStage s = .next t) :
    PhaseStep s t := by
  unfold executeStage at h
  split at h
  · exact .execute hp ‹_› (exec_cases h)
  · cases h

theorem phaseStep_of_writebackStage {s t : State} (hp : s.phase = .writeback) (h : writebackStage s = .next t) :
    PhaseStep s t := by
  unfold writebackStage at h
  split at h
  · cases h; exact .writeback hp ‹_› ‹_›
  next hmissing =>
    cases h
    refine .noWriteback hp (fun ⟨ha, hv⟩ => ?_)
    obtain ⟨a, ha⟩ := Option.isSome_iff_exists.1 ha
    obtain ⟨v, hv⟩ := Option.isSome_iff_exists.1 hv
    exact hmissing a v ha hv

/-- Everything the acting CPU phase of a tick can do (R70). -/
theorem runPhase_cases {s t : State} (h : runPhase s = .next t) : PhaseStep s t := by
  unfold runPhase at h
  split at h
  · exact phaseStep_of_stall ‹_› h
  · exact phaseStep_of_fetchStage ‹_› h
  · exact phaseStep_of_decodeStage ‹_› h
  · exact phaseStep_of_executeStage ‹_› h
  · exact phaseStep_of_writebackStage ‹_› h
  · cases h; exact .interruptCheck ‹_›

/-- Everything a step can do: nothing while stopped; while loading, the Memory and IC phases alone; else a sub-pulse of
the current phase before them (R65, R67, R134). -/
theorem step_phases {s t : State} (h : step s = .next t) :
    (s.running = false ∧ t = s) ∨
      (s.running = true ∧ s.isLoading = true ∧ t = s.tickStart.laterPhases) ∨
      (s.active ∧ ∃ u, PhaseStep s.tickStart.nextPulse u ∧ t = u.laterPhases) := by
  obtain ⟨hr, ht⟩ | ⟨hr, u, hu, ht⟩ := step_cases h
  · exact .inl ⟨hr, ht⟩
  cases hl : s.isLoading with
  | true =>
    rw [cpuTick_loading (by simpa using hl)] at hu
    cases hu; exact .inr (.inl ⟨hr, rfl, ht⟩)
  | false =>
    rw [cpuTick_active (by simpa using hr) (by simpa using hl)] at hu
    exact .inr (.inr ⟨⟨hr, hl⟩, u, runPhase_cases hu, ht⟩)

/-! ## The tag of the latched instruction -/

/-- The instruction that IR selects has IR's tag (R17, R61). -/
theorem tagOf_of_instrOfTag {tag : IrTag} {x lo hi : Byte} {i : Instr} (h : instrOfTag tag x lo hi = some i) :
    tagOf i = tag := by
  cases tag <;> cases h <;> rfl

/-! ## PC -/

/-- A sub-pulse moves PC only by a captured byte or a taken BNE (R71, R72, R94). -/
theorem PhaseStep.pc_cases {s t : State} (h : PhaseStep s t) :
    t.pc = s.pc ∨
      ((s.phase = .fetch ∨ s.phase = .operandFetch) ∧ s.pulse = 2 ∧ t.pc = s.pc + 1) ∨
      (s.phase = .execute ∧ s.ir = .bneRel ∧ s.z = false ∧ t.pc = branchTarget s.pc s.operand0) := by
  cases h with
  | fetchCapture hp hpulse => exact .inr (.inl ⟨.inl hp, hpulse, rfl⟩)
  | operandCapture hp hpulse => exact .inr (.inl ⟨.inr hp, hpulse, rfl⟩)
  | @execute i t hp hi hstep =>
    by_cases hbne : s.ir = .bneRel
    · rw [hbne] at hi
      cases hi
      have hpc := hstep.bne_pc
      cases hz : s.z with
      | true => exact .inl (hpc.trans (if_pos hz))
      | false => exact .inr (.inr ⟨hp, hbne, rfl, hpc.trans (by simp [hz])⟩)
    · exact .inl (hstep.pc_eq (tagOf_of_instrOfTag hi ▸ hbne))
  | writeback => exact .inl (by simp)
  | interruptCheck => exact .inl s.service_pc
  | _ => exact .inl rfl

/-- The Clock, the arrivals and the count of the sub-pulse do not touch the phase. -/
@[simp] theorem State.counted_phase (s : State) : s.tickStart.nextPulse.phase = s.phase :=
  State.phase_congr (by simp) (by simp) (by simp)

/-- Settles O31, from what a step can do and how a sub-pulse moves PC. -/
theorem stepMovesPcOnlyByFetchOrBranch : Obligations.StepMovesPcOnlyByFetchOrBranch := by
  intro s t h hne
  obtain ⟨-, rfl⟩ | ⟨-, -, rfl⟩ | ⟨-, u, hu, rfl⟩ := step_phases h
  · exact absurd rfl hne
  · exact absurd (by simp) hne
  · obtain hpc | ⟨hp, hpulse, hpc⟩ | ⟨hp, hir, hz, hpc⟩ := hu.pc_cases
    · exact absurd (by simpa using hpc) hne
    · exact .inl ⟨by simpa using hp, by simpa using hpulse, by simpa using hpc⟩
    · exact .inr ⟨by simpa using hp, by simpa using hir, by simpa using hz, by simpa [branchTarget, sext16] using hpc⟩

end Sys2Proof.Machine
end

section
/-! PROOFS. Every step keeps the invariant (10_state.md R32): the pipeline's part of it by what a sub-pulse can do, the
rest by what the Memory and IC phases do. -/

namespace Sys2Proof.Machine

/-! ## After an Execute sub-pulse -/

theorem State.stageAfterDone_cases (s : State) :
    s.stageAfterDone = .writeback ∨ s.stageAfterDone = .interruptCheck := by
  unfold State.stageAfterDone
  split
  · exact .inl rfl
  · exact .inr rfl

/-- `done` goes where the deferred write says (R74, 90_conflicts.md C5). -/
theorem State.done_pipelineInv {s : State} (hf : s.fetchCount = 0) (hc : s.currentFetch = 0)
    (hboth : s.writeAddress.isSome = s.writeValue.isSome) : s.done.laterPhases.PipelineInv := by
  have hphase : s.done.laterPhases.phase = s.stageAfterDone.phase :=
    (State.phase_of_fetchCount (by simpa using hf)).trans (by simp)
  refine ⟨⟨?_, ?_, ?_⟩, ?_⟩
  · simp [hf, hc]
  · simp [hf]
  · cases ha : s.writeAddress.isSome <;> simp [State.stageAfterDone, ← hboth, ha]
  · unfold State.pulseTurn
    obtain hstage | hstage := s.stageAfterDone_cases <;>
      (rw [hphase, hstage]; exact State.laterPhases_pulse s.done)

/-- The fault action leaves the pipeline at the start of a Fetch (R105). -/
theorem State.raise_pipelineInv (s : State) (k : FaultKind) (info : Nat) :
    (s.raise k info).laterPhases.PipelineInv :=
  State.Quiet.pipelineInv_fetch (.laterPhases ⟨rfl, rfl, rfl, rfl⟩) (by simp) (.inl (by simp))

/-- A micro-op sets both halves of the deferred write or neither (R22, R92). -/
theorem lastAction_deferred {i : Instr} {s : State} (m : Byte) (h : s.Quiet) :
    (lastAction i m s).fetchCount = 0 ∧ (lastAction i m s).currentFetch = 0 ∧
      (lastAction i m s).writeAddress.isSome = (lastAction i m s).writeValue.isSome := by
  refine ⟨?_, ?_, ?_⟩
  · cases i <;> exact h.fetchCount
  · cases i <;> exact h.currentFetch
  · cases i with
    | incAbs _ => rfl
    | _ => exact (congrArg Option.isSome h.writeAddress).trans (congrArg Option.isSome h.writeValue).symm

/-- A micro-op that reads may act once its read is served (R44). -/
theorem State.executeTurn_of_readAddress {s : State} {i : Instr} {ea : Word} (hea : readAddress i = some ea)
    (hir : s.ir = tagOf i) (hturn : s.readTurn) : s.executeTurn := by
  unfold State.executeTurn
  rw [hir]
  cases i with
  | ldaAbs _ | ldxAbs _ | ldyAbs _ | adcAbs _ | cpxAbs _ | incAbs _ => exact hturn
  | _ => cases hea

theorem ExecStep.pipelineInv {i : Instr} {s t : State} (h : ExecStep s i t) (hquiet : s.Quiet)
    (hstage : s.stage = .execute) (hir : s.ir = tagOf i) : t.laterPhases.PipelineInv := by
  have ⟨hf, hc, ha, hv⟩ := hquiet
  have hboth : s.writeAddress.isSome = s.writeValue.isSome := by rw [ha, hv]; rfl
  cases h with
  | read hea hpulse =>
    exact State.Quiet.pipelineInv_execute (.laterPhases ⟨hf, hc, ha, hv⟩) (by simpa)
      (State.executeTurn_of_readAddress hea (by simpa) (.inr (by simpa)))
  | store hpulse =>
    refine State.Quiet.pipelineInv_execute (.laterPhases ⟨hf, hc, ha, hv⟩) (by simpa) ?_
    simp [State.executeTurn, hir, tagOf, hpulse]
  | finish =>
    obtain ⟨hf, hc, hboth⟩ := lastAction_deferred (i := i) s.mdr hquiet
    exact State.done_pipelineInv hf hc hboth
  | printInt => exact State.done_pipelineInv hf hc hboth
  | stringFirst hx | stringRead hx =>
    exact State.Quiet.pipelineInv_execute (.laterPhases ⟨hf, hc, ha, hv⟩) (by simpa)
      (State.executeTurn_of_string (by simpa) (by simpa) (by simp))
  | stringEnd => exact State.done_pipelineInv hf hc hboth
  | stringByte hx heven =>
    exact State.Quiet.pipelineInv_execute (.laterPhases ⟨hf, hc, ha, hv⟩) (by simpa)
      (State.executeTurn_of_string (by simpa) (by simpa) (by simp [heven]))
  | invalid | stringOverrun => exact State.raise_pipelineInv _ _ _

/-! ## After a sub-pulse of any phase -/

/-- Every row of the decode table names an instruction (R61). -/
theorem lookupRow_tag_ne_none {op : Byte} {row : DecodeRow} (h : lookupRow op = some row) : row.tag ≠ .none := by
  have hrow : ∀ r ∈ decodeTable, r.tag ≠ .none := by decide
  exact hrow row (List.mem_of_find?_eq_some h)

theorem operandBytes_le (f : Format) (x : Byte) : operandBytes f x ≤ 2 := by
  cases f with
  | sys => simp only [operandBytes]; split <;> omega
  | _ => simp [operandBytes]

/-- What an acting CPU phase leaves alone. -/
theorem PhaseStep.frame {s t : State} (h : PhaseStep s t) :
    t.cells = s.cells ∧ t.isLoading = s.isLoading ∧ t.programQueue = s.programQueue := by
  cases h with
  | execute _ _ hstep =>
    obtain ⟨hcells, -, -, -, -, -, -, -, hqueue, -, hloading, -⟩ := hstep.frame
    exact ⟨hcells, hloading, hqueue⟩
  | writeback => simp
  | interruptCheck => exact ⟨s.service_cells, s.service_isLoading, s.service_programQueue⟩
  | _ => exact ⟨rfl, rfl, rfl⟩

/-- Every sub-pulse leaves the pipeline's part of the invariant, where the counters are right, a Fetch or a stall is in
one of its two sub-pulses, and a stall has its instruction in IR. -/
theorem PhaseStep.pipelineInv {s t : State} (h : PhaseStep s t) (hcounters : s.CountersInv)
    (hpulse : s.phase = .fetch ∨ s.phase = .operandFetch → s.pulse = 1 ∨ s.pulse = 2)
    (hir : s.phase = .operandFetch → s.ir ≠ .none) : t.laterPhases.PipelineInv := by
  cases h with
  | fetchRead hp hone =>
    obtain ⟨hstage, hf, hc, ha, hv⟩ := hcounters.quiet (g := .fetch) hp (by decide)
    exact State.Quiet.pipelineInv_fetch (.laterPhases ⟨hf, hc, ha, hv⟩) (by simpa) (.inr ⟨by simpa, by simp⟩)
  | fetchCapture hp =>
    obtain ⟨-, hf, hc, ha, hv⟩ := hcounters.quiet (g := .fetch) hp (by decide)
    exact State.Quiet.pipelineInv_start (.laterPhases ⟨hf, hc, ha, hv⟩) (.inl (by simp)) (by simp)
  | operandRead hp hone =>
    obtain ⟨hstall, hstage, ha, hv⟩ := hcounters.stall hp
    exact State.pipelineInv_of_stall (by simpa) (by simpa using hcounters.fetchBound.2) (by simpa)
      (by simpa using hir hp) (.inr ⟨by simpa, by simp⟩) (by simpa) (by simpa)
  | operandCapture hp =>
    obtain ⟨hstall, hstage, ha, hv⟩ := hcounters.stall hp
    have hbound := hcounters.fetchBound.2
    refine State.pipelineInv_of_executeStart ?_ ?_ (by simpa) (by simpa using hir hp) (by simp) (by simpa) (by simpa)
    · simp only [State.laterPhases_currentFetch, State.laterPhases_fetchCount, State.captureOperand_currentFetch,
        State.captureOperand_fetchCount, State.lastOperand, beq_iff_eq]
      split <;> omega
    · simp only [State.laterPhases_fetchCount, State.captureOperand_fetchCount]
      split <;> omega
  | idle hp hone htwo => exact absurd (hpulse hp) (not_or.2 ⟨hone, htwo⟩)
  | undefinedOpcode => exact State.raise_pipelineInv _ _ _
  | @decode row hp hrow =>
    obtain ⟨-, -, -, ha, hv⟩ := hcounters.quiet (g := .decode) hp (by decide)
    refine State.pipelineInv_of_executeStart ?_ ?_ (by simp) ?_ (by simp) (by simpa) (by simpa)
    · simpa using (Nat.eq_zero_or_pos (operandBytes row.format s.x)).symm
    · simpa using operandBytes_le row.format s.x
    · simpa using lookupRow_tag_ne_none hrow
  | execute hp hi hstep =>
    obtain ⟨hstage, hquiet⟩ := hcounters.quiet (g := .execute) hp (by decide)
    exact hstep.pipelineInv hquiet hstage (tagOf_of_instrOfTag hi).symm
  | writeback hp =>
    obtain ⟨-, hf, hc⟩ := hcounters.stage_of_phase (g := .writeback) hp
    exact State.Quiet.pipelineInv_start (.laterPhases ⟨by simpa, by simpa, by simp, by simp⟩) (.inr (by simp))
      (by simp)
  | noWriteback hp hmissing =>
    obtain ⟨hstage, -, -⟩ := hcounters.stage_of_phase (g := .writeback) hp
    exact absurd (by simpa [hstage] using hcounters.deferred) hmissing
  | interruptCheck hp =>
    obtain ⟨-, hf, hc, ha, hv⟩ := hcounters.quiet (g := .interruptCheck) hp (by decide)
    exact State.Quiet.pipelineInv_fetch (.laterPhases ⟨by simpa, by simpa, by simpa, by simpa⟩) (by simp)
      (.inl (by simp))

/-! ## The invariant, with the sub-pulse counted -/

section
variable {s : State}

theorem State.Inv.countersInv (h : s.Inv) : s.CountersInv := ⟨h.fetchBound, h.stalling, h.deferred⟩

/-- The Clock, the arrivals and the count of the sub-pulse touch neither the counters nor the deferred write. -/
theorem State.CountersInv.counted (h : s.CountersInv) : s.tickStart.nextPulse.CountersInv :=
  ⟨by simpa using h.fetchBound, by simpa using h.stalling, by simpa using h.deferred⟩

theorem State.Inv.counted_pulse (h : s.Inv) (hp : s.phase = .fetch ∨ s.phase = .operandFetch) :
    s.tickStart.nextPulse.pulse = 1 ∨ s.tickStart.nextPulse.pulse = 2 := by
  have hread : s.readTurn := by
    have hturn := h.pulseTurn
    unfold State.pulseTurn at hturn
    rcases hp with hp | hp <;> rw [hp] at hturn
    · exact hturn
    · exact hturn.2
  obtain hzero | ⟨hone, -⟩ := hread
  · exact .inl (by simp [hzero])
  · exact .inr (by simp [hone])

theorem State.Inv.ir_ne_none (h : s.Inv) (hp : s.phase = .operandFetch) : s.ir ≠ .none := by
  have hturn := h.pulseTurn
  unfold State.pulseTurn at hturn
  rw [hp] at hturn
  exact hturn.1

end

/-! ## The Memory unit and the load -/

/-- Outside a load the Memory phase leaves no write pending and the load's registers as they were (R39). -/
theorem State.memoryTick_of_notLoading {s : State} (hl : s.isLoading = false) :
    s.memoryTick.writePending = false ∧ s.memoryTick.isLoading = false ∧
      s.memoryTick.programQueue = s.programQueue := by
  cases hw : s.writePending with
  | false =>
    obtain ⟨-, hwrite, hload, hqueue⟩ := State.memoryTick_of_noWrite hw
    exact ⟨hwrite, hload.trans hl, hqueue⟩
  | true => exact (State.memoryTick_of_write hw hl).2

/-- During a load the Memory phase queues the next byte of the program, or ends the load (R39, R47). -/
theorem State.memoryTick_of_loading {s : State} (hl : s.isLoading = true) (hw : s.writePending = true) :
    s.memoryTick.writePending = s.memoryTick.isLoading ∧
      (s.memoryTick.isLoading = false → s.memoryTick.programQueue = []) := by
  cases hq : s.programQueue <;> simp [State.memoryTick, State.commitWrite, State.advanceLoad, hl, hw, hq]

/-- The Memory and IC phases after an acting CPU phase restore the rest of the invariant. -/
theorem State.PipelineInv.inv_laterPhases {s : State} (h : s.laterPhases.PipelineInv) (hcells : Memory.wf s.cells)
    (hl : s.isLoading = false) (hqueue : s.programQueue = []) : s.laterPhases.Inv := by
  obtain ⟨hwrite, hload, hkept⟩ := State.memoryTick_of_notLoading hl
  exact
    { cells := by simpa using State.memoryTick_wf hcells
      readPending := by simp
      writePending := by simp [hwrite, hload]
      programQueue := by simp [hkept, hqueue]
      loading := by simp [hload]
      fetchBound := h.fetchBound
      stalling := h.stalling
      waiting := by simp
      deferred := h.deferred
      pulseTurn := h.pulseTurn }

/-- A load goes on with the pipeline at the start of a Fetch (R67). -/
theorem State.Inv.fetchStart_of_loading {s : State} (h : s.Inv) (hl : s.isLoading = true) : s.FetchStart := by
  obtain ⟨hstage, hpulse⟩ := h.loading hl
  have hf : s.fetchCount = 0 := by
    by_contra hpos
    exact absurd (hstage.symm.trans (h.stalling (by omega)).2) (by decide)
  obtain ⟨ha, hv⟩ := h.countersInv.deferred_none (by simp [hstage])
  exact ⟨⟨hf, by have := h.fetchBound.1; omega, ha, hv⟩, hstage, hpulse⟩

theorem State.Inv.tick_of_loading {s : State} (h : s.Inv) (hl : s.isLoading = true) :
    s.tickStart.laterPhases.Inv := by
  obtain ⟨⟨hf, hc, ha, hv⟩, hstage, hpulse⟩ := h.fetchStart_of_loading hl
  obtain ⟨hwrite, hqueue⟩ := State.memoryTick_of_loading (s := s.tickStart) hl (h.writePending.trans hl)
  exact State.FetchStart.inv ⟨⟨by simpa, by simpa, by simpa, by simpa⟩, by simpa, by simpa⟩
    (by simpa using State.memoryTick_wf (s := s.tickStart) h.cells) (by simp) (by simpa) (by simpa) (by simp)

/-- Settles O48, by what a step can do: nothing, a tick of the load, or a sub-pulse of the current phase. -/
theorem stepKeepsInvariant : Obligations.StepKeepsInvariant := by
  intro s t hinv h
  obtain ⟨-, rfl⟩ | ⟨-, hl, rfl⟩ | ⟨⟨-, hl⟩, u, hu, rfl⟩ := step_phases h
  · exact hinv
  · exact hinv.tick_of_loading hl
  · obtain ⟨hcells, hload, hqueue⟩ := hu.frame
    have hpipe : u.laterPhases.PipelineInv := hu.pipelineInv hinv.countersInv.counted
      (by simpa using hinv.counted_pulse) (by simpa using hinv.ir_ne_none)
    exact hpipe.inv_laterPhases (by simpa [hcells] using hinv.cells) (by simpa [hload] using hl)
      (by simpa [hqueue] using hinv.programQueue hl)

end Sys2Proof.Machine
end

section
/-! PROOFS. Writes to memory (20_memory.md R39, R42): what the Memory phase stores, which transactions a micro-op queues
(R85, R92), and which cells a step can change. -/

namespace Sys2Proof.Machine

/-! ## The cells after the Memory phase (R39) -/

section
variable {s : State}

/-- The write half of the Memory phase puts MDR into the cell at MAR where a write is pending, and into no other. -/
theorem State.commitWrite_cell (h : Memory.wf s.cells) (b : Word) :
    s.commitWrite.cell b = if s.writePending = true ∧ b = s.mar then s.mdr else s.cell b := by
  unfold State.cell
  rw [State.commitWrite_cells]
  cases s.writePending with
  | false => simp
  | true => simp [Memory.read_write h, BitVec.toNat_inj, eq_comm]

/-- The read half of the Memory phase and the IC phase change no cell. -/
theorem State.laterPhases_cell (h : Memory.wf s.cells) (b : Word) :
    s.laterPhases.cell b = if s.writePending = true ∧ b = s.mar then s.mdr else s.cell b :=
  State.commitWrite_cell h b

/-! ## The transactions that a micro-op queues -/

/-- A sub-pulse of Execute queues no write and leaves MDR alone, but for the first one of STA (R45, R85). -/
theorem ExecStep.write_cases {i : Instr} {t : State} (h : ExecStep s i t) :
    (t.writePending = s.writePending ∧ t.mdr = s.mdr) ∨
      ∃ ea, i = .staAbs ea ∧ s.pulse = 1 ∧ t = s.writeImmediate ea s.a := by
  cases h with
  | @store ea hpulse => exact .inr ⟨ea, rfl, hpulse, rfl⟩
  | finish => exact .inl (by cases i <;> exact ⟨rfl, rfl⟩)
  | _ => exact .inl ⟨rfl, rfl⟩

/-- A micro-op of the shape `readThen` reads its operand in two sub-pulses (R44, R74). -/
theorem readsOperand_of_readThen {i : Instr} {ea : Word} {act : Byte → State → State}
    (h : ∀ s, exec i s = readThen s ea act) : ReadsOperand i ea act := by
  intro s
  refine ⟨fun hpulse => ?_, fun hpulse hread => ?_, fun hpulse hwrite => ?_⟩
  · simp [h, readThen, hpulse]
  · simp [h, readThen, hpulse, withMdr, hread]
  · simp [h, readThen, State.memoryTick_triggerRead hwrite, State.nextPulse, hpulse, withMdr]

/-- INC's micro-op, with the value it stores written as R92 writes it. -/
theorem exec_incAbs (ea : Word) (s : State) :
    exec (.incAbs ea) s = readThen s ea (fun m s =>
      { s with writeAddress := some ea, writeValue := some (BitVec.ofNat 8 ((m.toNat + 1) % 256)) }) := by
  have hvalue (m : Byte) : incResult m = BitVec.ofNat 8 ((m.toNat + 1) % 256) := by
    rw [incResult]; bv_omega
  simp only [← hvalue]
  rfl

/-! ## Writeback and the whole step -/

/-- The Writeback tick queues the deferred write, clears both halves, and lets the Memory phase commit it (R75). -/
theorem step_writeback {a : Word} {v : Byte} (h : s.active) (hp : s.phase = .writeback)
    (ha : s.writeAddress = some a) (hv : s.writeValue = some v) :
    step s =
      .next ((s.tickStart.nextPulse.clearDeferred.goto .interruptCheck).writeImmediate a v).laterPhases := by
  rw [step_active h, runPhase, State.counted_phase, hp]
  simp [writebackStage, ha, hv]

/-- After the Writeback tick the cell at the address holds the value, and every other cell what it held (R39, R75). -/
theorem State.writeback_cell (h : Memory.wf s.cells) (a : Word) (v : Byte) (b : Word) :
    ((s.tickStart.nextPulse.clearDeferred.goto .interruptCheck).writeImmediate a v).laterPhases.cell b =
      if b = a then v else s.cell b := by
  rw [State.laterPhases_cell (by simpa using h)]
  simp [State.cell]

/-- The CPU phase writes no cell itself (R38). -/
theorem cpuTick_cells {u : State} (h : cpuTick s = .next u) : u.cells = s.cells := by
  unfold cpuTick at h
  split at h
  · cases h; rfl
  · exact (runPhase_cases h).frame.1

end

/-- Settles O13, from what the write half of the Memory phase stores. -/
theorem storeAbsoluteResult : Obligations.StoreAbsoluteResult := by
  intro ea s
  have hfirst (hpulse : s.pulse = 1) : exec (.staAbs ea) s = .next (s.writeImmediate ea s.a) := if_pos hpulse
  refine ⟨rfl, hfirst, fun hpulse => ?_, fun hpulse hcells => ⟨_, hfirst hpulse, fun b => ?_⟩⟩
  · simp [exec, execStaAbs, hpulse]
  · rw [State.commitWrite_cell (by simpa using hcells)]
    simp [State.cell]

/-- Settles O25, from what the Writeback tick queues and the Memory phase commits. -/
theorem writebackCommitsDeferredWrite : Obligations.WritebackCommitsDeferredWrite := by
  intro s a v hactive hp _ hcells ha hv
  refine ⟨_, step_writeback hactive hp ha hv, by simp, by simp, by simp, by simp, ?_, State.writeback_cell hcells a v⟩
  rw [State.laterPhases_writePending]
  exact (State.memoryTick_of_notLoading (by simpa using hactive.2)).1

/-- Settles O17: INC is a `readThen` that latches the deferred write, and the Writeback tick commits it. -/
theorem incAbsoluteResult : Obligations.IncAbsoluteResult := by
  intro ea
  refine ⟨rfl, readsOperand_of_readThen (exec_incAbs ea), fun s t hpulse h => ?_⟩
  rw [exec_incAbs, readThen_eq_next] at h
  obtain ⟨hone, -⟩ | ⟨-, -, rfl⟩ := h
  · omega
  rw [State.done_of_some rfl rfl]
  refine ⟨rfl, rfl, fun hactive hp _ hcells => ⟨_, step_writeback hactive hp rfl rfl, ?_, by simp, by simp⟩⟩
  rw [State.writeback_cell hcells, if_pos rfl]

/-- Settles O29, from what one Execute sub-pulse can do. -/
theorem execQueuesOnlyStoreOfSta : Obligations.ExecQueuesOnlyStoreOfSta := by
  intro i s t h
  have hstep := exec_cases h
  refine ⟨fun b => by rw [State.cell, hstep.frame.1, State.cell], ?_⟩
  obtain hkept | ⟨ea, hi, hpulse, rfl⟩ := hstep.write_cases
  · exact .inl hkept
  · exact .inr ⟨ea, hi, hpulse, by simp⟩

/-- Settles O30: the CPU phase changes no cell, and the later phases change the one at MAR where a write is pending. -/
theorem stepWritesOnlyTheLatchedCell : Obligations.StepWritesOnlyTheLatchedCell := by
  intro s t hinv h hrunning
  obtain ⟨hstopped, -⟩ | ⟨-, u, hu, rfl⟩ := step_cases h
  · simp [hstopped] at hrunning
  have hkept : u.cells = s.cells := by simpa using cpuTick_cells hu
  refine ⟨u, hu, fun b => ?_⟩
  rw [State.laterPhases_cell (hkept ▸ hinv.cells), State.cell, State.cell, hkept]

end Sys2Proof.Machine
end

section
/-! PROOFS. Under the invariant every step answers a next state: its clause on the coming sub-pulse (10_state.md R20, R44)
is what each phase needs. -/

namespace Sys2Proof.Machine

section
variable {s : State}

/-- From the count 0 the coming sub-pulse is the first (R68). -/
theorem State.nextPulse_of_zero (hpulse : s.pulse = 0) : s.nextPulse.pulse = 1 := by
  rw [State.nextPulse_pulse, hpulse]

/-- A rule of two sub-pulses, the second of which takes `Mdr()`, answers where its turn has come (R44, R109). -/
theorem State.readTurn.next {first : State} {second : Byte → State} {other : Answer} (h : s.readTurn) :
    ∃ t, (if s.nextPulse.pulse = 1 then .next first
      else if s.nextPulse.pulse = 2 then withMdr s.nextPulse (fun m => .next (second m)) else other) = .next t := by
  obtain hpulse | ⟨hpulse, hread⟩ := h
  · exact ⟨first, if_pos (State.nextPulse_of_zero hpulse)⟩
  · exact ⟨second s.mdr, by simp [hpulse, withMdr, hread]⟩

/-- A string print answers wherever its byte has been read (R99). -/
theorem sysString_nextPulse (hturn : s.pulse % 2 = 1 → s.readCompleted = true) (cross : PageCross)
    (atTop : StrWrap) (start : Word) : ∃ t, sysString cross atTop start s.nextPulse = .next t := by
  unfold sysString
  rw [if_neg (by simp)]
  split
  · exact ⟨_, rfl⟩
  split
  · exact ⟨_, rfl⟩
  next _ heven =>
    have hread : s.readCompleted = true := hturn (by rw [State.nextPulse_pulse] at heven; omega)
    exact ⟨_, if_pos hread⟩

theorem execSys_nextPulse
    (hturn : if s.x = 0x02#8 ∨ s.x = 0x03#8 then s.pulse % 2 = 1 → s.readCompleted = true else s.pulse = 0)
    (start : Option Word) : ∃ t, execSys start s.nextPulse = .next t := by
  unfold execSys
  rw [State.nextPulse_x]
  split
  next hx => exact ⟨_, if_pos (State.nextPulse_of_zero (by simpa [hx] using hturn))⟩
  split
  next hx => exact sysString_nextPulse (by simpa [hx] using hturn) _ _ _
  split
  next hx => exact sysString_nextPulse (by simpa [hx] using hturn) _ _ _
  next hx2 hx3 =>
    have hpulse : s.pulse = 0 := by simpa [hx2, hx3] using hturn
    exact ⟨_, if_pos (State.nextPulse_of_zero hpulse)⟩

/-- The micro-op that IR selects answers in a sub-pulse that its table lists (R74). -/
theorem State.executeTurn.exec_next {i : Instr} (h : s.executeTurn) (hir : s.ir = tagOf i) :
    ∃ t, exec i s.nextPulse = .next t := by
  unfold State.executeTurn at h
  rw [hir] at h
  cases i with
  | sys start => exact execSys_nextPulse h start
  | staAbs ea =>
    obtain hpulse | hpulse : s.pulse = 0 ∨ s.pulse = 1 := Nat.le_one_iff_eq_zero_or_eq_one.1 h
    · exact ⟨_, if_pos (State.nextPulse_of_zero hpulse)⟩
    · exact ⟨s.nextPulse.done, by simp [exec, execStaAbs, hpulse]⟩
  | ldaAbs _ | ldxAbs _ | ldyAbs _ | adcAbs _ | cpxAbs _ | incAbs _ => exact State.readTurn.next h
  | ldaImm _ | ldxImm _ | ldyImm _ | txa | tya | tax | tay | bne _ | nop | brk =>
    exact ⟨_, if_pos (State.nextPulse_of_zero h)⟩

/-- Every tag but NONE selects a micro-op (R17, R61). -/
theorem instrOfTag_of_ne_none {tag : IrTag} (h : tag ≠ .none) (x lo hi : Byte) :
    ∃ i, instrOfTag tag x lo hi = some i := by
  cases tag with
  | none => exact absurd rfl h
  | _ => exact ⟨_, rfl⟩

theorem State.executeTurn.executeStage_next (h : s.executeTurn) : ∃ t, executeStage s.nextPulse = .next t := by
  have hir : s.ir ≠ .none := by
    intro hnone
    simp [State.executeTurn, hnone] at h
  obtain ⟨i, hi⟩ := instrOfTag_of_ne_none hir s.x s.operand0 s.operand1
  obtain ⟨t, ht⟩ := h.exec_next (tagOf_of_instrOfTag hi).symm
  refine ⟨t, ?_⟩
  simp [executeStage, hi, ht]

/-- A phase whose coming sub-pulse is a legal one answers a next state (R70). -/
theorem State.pulseTurn.runPhase_next (h : s.pulseTurn) : ∃ t, runPhase s.nextPulse = .next t := by
  have hphase : s.nextPulse.phase = s.phase := rfl
  unfold State.pulseTurn at h
  unfold runPhase
  rw [hphase]
  cases hp : s.phase <;> rw [hp] at h
  case fetch => exact State.readTurn.next h
  case operandFetch => exact State.readTurn.next h.2
  case execute => exact State.executeTurn.executeStage_next h
  case decode => dsimp only [decodeStage]; split <;> exact ⟨_, rfl⟩
  case writeback => dsimp only [writebackStage]; split <;> exact ⟨_, rfl⟩
  case interruptCheck => exact ⟨_, rfl⟩

/-- While the program loads a step is the Memory and IC phases alone (R67). -/
theorem step_loading (hrunning : s.running = true) (hloading : s.isLoading = true) :
    step s = .next s.tickStart.laterPhases := by
  rw [step_running hrunning, cpuTick_loading (by simpa using hloading)]
  rfl

end

/-- Settles O49: a step does nothing, or loads, or runs a sub-pulse of which the invariant says that it is legal. -/
theorem stepNeverStopsUnderInvariant : Obligations.StepNeverStopsUnderInvariant := by
  intro s hinv
  cases hrunning : s.running with
  | false => exact ⟨s, step_stopped hrunning⟩
  | true =>
    cases hloading : s.isLoading with
    | true => exact ⟨_, step_loading hrunning hloading⟩
    | false =>
      have hturn : s.tickStart.pulseTurn := hinv.pulseTurn
      obtain ⟨u, hu⟩ := hturn.runPhase_next
      exact ⟨u.laterPhases, by rw [step_active ⟨hrunning, hloading⟩, hu, andThen_next]⟩

end Sys2Proof.Machine
end

section
/-! PROOFS. The load of a program (20_memory.md R46 to R48): before every tick of it the bytes stored so far are in
memory and the next one is queued, and after the last the machine is at an instruction boundary. -/

namespace Sys2Proof.Machine

/-! ## The byte that is queued (R47) -/

/-- Byte `k` of `p` is queued to be written at address `k` and the bytes after it wait in the queue; with no byte `k`
the load has ended (R47). -/
structure State.Queued (p : List Byte) (k : Nat) (s : State) : Prop where
  isLoading : s.isLoading = decide (k < p.length)
  writePending : s.writePending = decide (k < p.length)
  latches : k < p.length → s.mar = BitVec.ofNat 16 k ∧ s.mdr = p.getD k 0x00#8
  queue : k < p.length → s.programQueue = p.drop (k + 1) ∧ s.loadAddress = BitVec.ofNat 16 (k + 1)

/-- AdvanceLoad queues the first byte of the program queue, or ends the load (R47). -/
theorem State.advanceLoad_queued {p : List Byte} {k : Nat} {s : State} (hloading : s.isLoading = true)
    (hwrite : s.writePending = false) (hqueue : s.programQueue = p.drop k)
    (haddress : s.loadAddress = BitVec.ofNat 16 k) : s.advanceLoad.Queued p k := by
  by_cases hk : k < p.length
  · rw [List.drop_eq_getElem_cons hk] at hqueue
    unfold State.advanceLoad
    rw [hqueue]
    exact ⟨by simp [hk, hloading], by simp [hk], fun _ => by simp [haddress, hk],
      fun _ => by simp [haddress, BitVec.ofNat_add]⟩
  · rw [List.drop_eq_nil_of_le (by omega)] at hqueue
    unfold State.advanceLoad
    rw [hqueue]
    exact ⟨by simp [hk], by simp [hk, hwrite], fun h => absurd h hk, fun h => absurd h hk⟩

section
variable {p : List Byte} {useCarry : Bool} {k : Nat} {s : State}

/-- The write half of the Memory phase commits the queued byte and queues the next one (R39, R47). -/
theorem State.Queued.commitWrite (h : s.Queued p k) (hk : k < p.length) : s.commitWrite.Queued p (k + 1) := by
  have hloading : s.isLoading = true := by simp [h.isLoading, hk]
  have hwrite : s.writePending = true := by simp [h.writePending, hk]
  obtain ⟨hqueue, haddress⟩ := h.queue hk
  rw [State.commitWrite, if_pos hwrite]
  dsimp only
  rw [if_pos (by simpa)]
  exact State.advanceLoad_queued (by simpa) rfl hqueue haddress

/-- With no read pending the read half leaves the queued byte in MDR (R39). -/
theorem State.Queued.serveRead (h : s.Queued p k) (hread : s.readPending = false) : s.serveRead.Queued p k :=
  ⟨h.isLoading, h.writePending, by simpa [State.serveRead, hread] using h.latches, h.queue⟩

/-- The write half of the Memory phase leaves a pending read to the read half, which records it (R39). -/
theorem State.commitWrite_readPending (s : State) : s.commitWrite.readPending = s.readPending :=
  s.memoryTick_readCompleted

/-- A Memory phase of the load leaves the next byte queued (R39, R47). -/
theorem State.Queued.memoryTick (h : s.Queued p k) (hk : k < p.length) (hread : s.readPending = false) :
    s.memoryTick.Queued p (k + 1) :=
  (h.commitWrite hk).serveRead (s.commitWrite_readPending.trans hread)

/-- The IC phase leaves what is queued as the Memory phase left it. -/
theorem State.Queued.laterPhases (h : s.memoryTick.Queued p k) : s.laterPhases.Queued p k := by
  obtain ⟨hloading, hwrite, hlatches, hqueue⟩ := h
  exact ⟨by simpa, by simpa, by simpa, by simpa⟩

/-! ## The load from tick to tick -/

/-- The CPU as an accepted Start of a program leaves it: running, at the start of a Fetch, with every register at its
reset value (R127, decision D17). -/
structure State.CpuStarted (useCarry : Bool) (s : State) : Prop extends s.FetchStart where
  running : s.running = true
  readPending : s.readPending = false
  registers : s.a = 0x00#8 ∧ s.x = 0x00#8 ∧ s.y = 0x00#8 ∧ s.z = false ∧ s.c = false ∧ s.pc = 0x0000#16
  useCarry : s.useCarry = useCarry

/-- The load of `p` after `k` ticks: the first `k` bytes are in memory, and byte `k` is queued (R48). -/
structure State.LoadInv (p : List Byte) (useCarry : Bool) (k : Nat) (s : State) : Prop where
  cpu : s.CpuStarted useCarry
  queued : s.Queued p k
  cells : Memory.wf s.cells
  stored : ∀ a : Word, s.cell a = if a.toNat < k then p.getD a.toNat 0x00#8 else 0x00#8

/-- A tick of the load touches no register (R67). -/
theorem State.CpuStarted.loadTick (h : s.CpuStarted useCarry) : s.tickStart.laterPhases.CpuStarted useCarry := by
  obtain ⟨⟨⟨hf, hc, ha, hv⟩, hstage, hpulse⟩, hrunning, -, hregisters, hcarry⟩ := h
  exact ⟨⟨⟨by simpa, by simpa, by simpa, by simpa⟩, by simpa, by simpa⟩, by simpa, by simp, by simpa, by simpa⟩

/-- A tick of the load stores the queued byte and queues the next one (R47, R48). -/
theorem State.LoadInv.loadTick (h : s.LoadInv p useCarry k) (hk : k < p.length) (hlength : p.length ≤ 65536) :
    s.tickStart.laterPhases.LoadInv p useCarry (k + 1) := by
  obtain ⟨hcpu, hqueued, hcells, hstored⟩ := h
  have hstart : s.tickStart.Queued p k :=
    ⟨hqueued.isLoading, hqueued.writePending, hqueued.latches, hqueued.queue⟩
  refine ⟨hcpu.loadTick, (hstart.memoryTick hk hcpu.readPending).laterPhases,
    by simpa using State.memoryTick_wf (s := s.tickStart) hcells, fun a => ?_⟩
  obtain ⟨hmar, hmdr⟩ := hstart.latches hk
  have haddress : a = BitVec.ofNat 16 k ↔ a.toNat = k := by
    rw [← BitVec.toNat_inj, BitVec.toNat_ofNat, Nat.mod_eq_of_lt (by omega)]
  have hkept : s.tickStart.cell a = s.cell a := rfl
  rw [State.laterPhases_cell (s := s.tickStart) hcells, hstart.writePending, hmar, hmdr, hkept, hstored]
  by_cases ha : a.toNat = k
  · simp [haddress, ha, hk]
  · simp [haddress, ha, show a.toNat < k + 1 ↔ a.toNat < k by omega]

/-- Start empties memory, queues the first byte of the program and resets the CPU (R46, R127). -/
theorem start_loadInv {debugLog : Bool} {s0 : State} (hp : p ≠ []) (h : start p useCarry debugLog s = .next s0) :
    s0.LoadInv p useCarry 0 := by
  obtain ⟨hnil, -⟩ | ⟨b, rest, rfl, rfl⟩ := start_cases h
  · exact absurd hnil hp
  have hempty : Memory.wf [] := by decide
  have hqueued : ((s.startReset useCarry debugLog).setProgram (b :: rest)).Queued (b :: rest) 0 :=
    State.advanceLoad_queued rfl rfl rfl rfl
  exact ⟨⟨⟨⟨rfl, rfl, rfl, rfl⟩, rfl, rfl⟩, rfl, rfl, ⟨rfl, rfl, rfl, rfl, rfl, rfl⟩, rfl⟩,
    ⟨hqueued.isLoading, hqueued.writePending, hqueued.latches, hqueued.queue⟩, hempty, fun _ => rfl⟩

/-- Every tick up to the last byte carries the load on (R48). -/
theorem State.LoadInv.run (h : s.LoadInv p useCarry 0) (hlength : p.length ≤ 65536) (hk : k ≤ p.length) :
    ∃ t, run k s = .next t ∧ t.LoadInv p useCarry k := by
  induction k with
  | zero => exact ⟨s, rfl, h⟩
  | succ k ih =>
    obtain ⟨t, hrun, ht⟩ := ih (by omega)
    have hstep : step t = .next t.tickStart.laterPhases :=
      step_loading ht.cpu.running (by simpa [ht.queued.isLoading] using hk)
    refine ⟨t.tickStart.laterPhases, ?_, ht.loadTick (by omega) hlength⟩
    rw [run_add, hrun, andThen_next, Machine.run, hstep]
    rfl

/-- After the last byte the machine is at an instruction boundary (R48, R78). -/
theorem State.LoadInv.boundary (h : s.LoadInv p useCarry p.length) : s.boundary := by
  obtain ⟨⟨⟨⟨hf, hc, ha, hv⟩, hstage, hpulse⟩, hrunning, hread, -, -⟩, hqueued, -, -⟩ := h
  exact ⟨hrunning, by simp [hqueued.isLoading], hstage, hpulse, hf, hc, ha, hv, hread, by simp [hqueued.writePending]⟩

end

/-- Settles O44, by induction on the ticks of the load. -/
theorem programLoadTakesOneTickPerByte : Obligations.ProgramLoadTakesOneTickPerByte := by
  intro p useCarry debugLog s s0 _ hp hlength hstart k hk
  obtain ⟨t, hrun, ht⟩ := (start_loadInv hp hstart).run hlength hk
  obtain ⟨ha, hx, hy, hz, hc, hpc⟩ := ht.cpu.registers
  exact ⟨t, hrun, ht.queued.isLoading, ht.cpu.running, ht.stored, ha, hx, hy, hz, hc, hpc, ht.cpu.useCarry,
    fun hlast => State.LoadInv.boundary (hlast ▸ ht)⟩

end Sys2Proof.Machine
end

section
/-! PROOFS. The decoder and the encoder (30_encoding.md R55 to R62): what the decoder can answer, said once, and that its
table, its assembly of an instruction and the encoder agree. The decoder assembles an instruction from two bytes, 0x00
standing for one that the instruction does not have, so that from a list `operands` of any size it takes
`operands.getD 0 0` and `operands.getD 1 0`. -/

namespace Sys2Proof
open Machine

/-! ## The little-endian operand (R35) -/

@[simp] theorem littleEndian_lowByte_highByte (w : Word) : littleEndian (lowByte w) (highByte w) = w := by
  unfold littleEndian lowByte highByte
  ext n hn
  by_cases hlow : n < 8
  · simp [hlow, hn]
  · have hhigh : 8 + (n - 8) = n := by omega
    simp [hlow, hn, hhigh, show n - 8 < 8 by omega]

@[simp] theorem lowByte_littleEndian (lo hi : Byte) : lowByte (littleEndian lo hi) = lo := by
  unfold littleEndian lowByte
  ext n hn
  simp

@[simp] theorem highByte_littleEndian (lo hi : Byte) : highByte (littleEndian lo hi) = hi := by
  unfold littleEndian highByte
  ext n hn
  simp [hn, show 8 + n < 16 by omega]

/-! ## The decode table (R61, R62) -/

theorem lookupRow_mem {op : Byte} {row : DecodeRow} (h : lookupRow op = some row) : row ∈ decodeTable :=
  List.mem_of_find?_eq_some h

theorem lookupRow_opcode {op : Byte} {row : DecodeRow} (h : lookupRow op = some row) : row.opcode = op := by
  simpa using List.find?_some h

/-- Every row of the table has a tag of its own (R61). -/
theorem decodeTable_tag_injective {row row' : DecodeRow} (h : row ∈ decodeTable) (h' : row' ∈ decodeTable)
    (htag : row.tag = row'.tag) : row = row' :=
  List.inj_on_of_nodup_map (f := DecodeRow.tag) (by decide) h h' htag

/-- The eighteen opcodes of R61, in rising order. -/
def definedOpcodes : List Byte :=
  [0x00#8, 0x6D#8, 0x8A#8, 0x8D#8, 0x98#8, 0xA0#8, 0xA2#8, 0xA8#8, 0xA9#8, 0xAA#8, 0xAC#8, 0xAD#8, 0xAE#8, 0xD0#8,
    0xEA#8, 0xEC#8, 0xEE#8, 0xFF#8]

theorem decodeTable_opcodes_perm : (decodeTable.map DecodeRow.opcode).Perm definedOpcodes := by decide

/-- The bytes without a row are those outside the eighteen opcodes (R62). -/
theorem lookupRow_eq_none_iff {op : Byte} : lookupRow op = none ↔ op ∉ definedOpcodes := by
  rw [← decodeTable_opcodes_perm.mem_iff]
  simp [lookupRow]

/-- What Laws/PerInstr.lean says of each constructor holds of every instruction. -/
theorem encodingStatement (i : Instr) : Laws.Encoding.Statement i :=
  match i with
  | .ldaImm imm => Laws.Encoding.ldaImm imm
  | .ldaAbs ea => Laws.Encoding.ldaAbs ea
  | .ldxImm imm => Laws.Encoding.ldxImm imm
  | .ldxAbs ea => Laws.Encoding.ldxAbs ea
  | .ldyImm imm => Laws.Encoding.ldyImm imm
  | .ldyAbs ea => Laws.Encoding.ldyAbs ea
  | .staAbs ea => Laws.Encoding.staAbs ea
  | .txa => Laws.Encoding.txa
  | .tya => Laws.Encoding.tya
  | .tax => Laws.Encoding.tax
  | .tay => Laws.Encoding.tay
  | .adcAbs ea => Laws.Encoding.adcAbs ea
  | .cpxAbs ea => Laws.Encoding.cpxAbs ea
  | .incAbs ea => Laws.Encoding.incAbs ea
  | .bne rel => Laws.Encoding.bne rel
  | .nop => Laws.Encoding.nop
  | .brk => Laws.Encoding.brk
  | .sys start => Laws.Encoding.sys start

/-- Every instruction has the row of its opcode byte and its tag, which takes its operand bytes (R55, R61). -/
theorem exists_row (i : Instr) :
    ∃ row, lookupRow (opcodeOf i) = some row ∧ row.tag = tagOf i ∧
      ∀ x, i.wellFormed x = true → (operandsOf i).length = operandBytes row.format x := by
  obtain ⟨row, hrow, htag, hlength⟩ := encodingStatement i
  refine ⟨row, hrow, htag, fun x hx => ?_⟩
  have hencode : (operandsOf i).length + 1 = 1 + operandBytes row.format x := hlength x hx
  omega

/-! ## What the decoder answers -/

/-- Everything the assembly of an instruction can answer. -/
theorem decode_answer_eq_ok {x op lo hi : Byte} {tag : IrTag} {tail rest : List Byte} {i : Instr} :
    decode.answer x op tag lo hi tail = .ok (i, rest) ↔ instrOfTag tag x lo hi = some i ∧ tail = rest := by
  unfold decode.answer
  split <;> simp_all

/-- An opcode of the table, with as many operand bytes as its row takes, decodes to the instruction of the row's tag
(R55, R60, R61). -/
theorem decode_of_row {x op : Byte} {row : DecodeRow} {operands : List Byte} {i : Instr}
    (hrow : lookupRow op = some row) (hlength : operands.length = operandBytes row.format x)
    (hi : instrOfTag row.tag x (operands.getD 0 0) (operands.getD 1 0) = some i) (rest : List Byte) :
    decode x (op :: (operands ++ rest)) = .ok (i, rest) := by
  have hbound : operands.length ≤ 2 := hlength ▸ operandBytes_le row.format x
  unfold decode
  simp only [hrow, ← hlength]
  match operands, hbound with
  | [], _ | [_], _ | [_, _], _ => exact decode_answer_eq_ok.2 ⟨hi, rfl⟩

/-- An opcode outside the table is refused under its own name (R62). -/
theorem decode_of_no_row {op : Byte} (hrow : lookupRow op = none) (x : Byte) (rest : List Byte) :
    decode x (op :: rest) = .error (.unknownOpcode op) := by
  simp [decode, hrow]

/-- An opcode of the table decodes where two bytes follow it, as many as any row takes (R60, R61). -/
theorem decode_defined {op : Byte} {row : DecodeRow} (hrow : lookupRow op = some row) (x lo hi : Byte)
    (rest : List Byte) : ∃ i more, decode x (op :: lo :: hi :: rest) = .ok (i, more) := by
  have hbound : operandBytes row.format x ≤ 2 := operandBytes_le row.format x
  have hlength : ([lo, hi].take (operandBytes row.format x)).length = operandBytes row.format x := by simpa
  obtain ⟨i, hassembled⟩ := instrOfTag_of_ne_none (lookupRow_tag_ne_none hrow) x _ _
  have hdecode := decode_of_row hrow hlength hassembled ([lo, hi].drop (operandBytes row.format x) ++ rest)
  rw [← List.append_assoc, List.take_append_drop] at hdecode
  exact ⟨i, _, hdecode⟩

/-- Bytes that decode are an opcode of the table, as many operand bytes as its row takes, and the rest (R55, R60,
R61). -/
theorem decode_cases {x : Byte} {bytes rest : List Byte} {i : Instr} (h : decode x bytes = .ok (i, rest)) :
    ∃ op row operands, bytes = op :: (operands ++ rest) ∧ lookupRow op = some row ∧
      operands.length = operandBytes row.format x ∧
      instrOfTag row.tag x (operands.getD 0 0) (operands.getD 1 0) = some i := by
  unfold decode at h
  split at h
  · cases h
  next op tail =>
  split at h
  · cases h
  next row hrow =>
  split at h
  next hn =>
    obtain ⟨hi, rfl⟩ := decode_answer_eq_ok.1 h
    exact ⟨op, row, [], rfl, hrow, hn.symm, hi⟩
  next lo tail hn =>
    obtain ⟨hi, rfl⟩ := decode_answer_eq_ok.1 h
    exact ⟨op, row, [lo], rfl, hrow, hn.symm, hi⟩
  next lo hi tail h0 h1 =>
    obtain ⟨hi', rfl⟩ := decode_answer_eq_ok.1 h
    have hn : 2 = operandBytes row.format x := by
      have hbound := operandBytes_le row.format x
      change _ ≠ _ at h0 h1
      omega
    exact ⟨op, row, [lo, hi], rfl, hrow, hn, hi'⟩
  · cases h

/-! ## The assembly of an instruction and the encoder agree -/

/-- A well-formed instruction is assembled again from its tag and its operand bytes (R57 to R60). -/
theorem instrOfTag_tagOf {x : Byte} {i : Instr} (h : i.wellFormed x = true) :
    instrOfTag (tagOf i) x ((operandsOf i).getD 0 0) ((operandsOf i).getD 1 0) = some i := by
  cases i with
  | sys start => cases start <;> simp_all [Instr.wellFormed, instrOfTag, tagOf, operandsOf]
  | _ => simp [instrOfTag, tagOf, operandsOf]

/-- An assembled instruction is well formed (R60). -/
theorem wellFormed_of_instrOfTag {tag : IrTag} {x lo hi : Byte} {i : Instr} (h : instrOfTag tag x lo hi = some i) :
    i.wellFormed x = true := by
  cases tag with
  | sys =>
    cases h
    by_cases hx : x = 0x03#8 <;> simp [Instr.wellFormed, hx]
  | _ => cases h <;> rfl

/-- The operand bytes of an assembled instruction are the first of the bytes it was assembled from (R56). -/
theorem operandsOf_eq_take {tag : IrTag} {x lo hi : Byte} {i : Instr} (h : instrOfTag tag x lo hi = some i) :
    operandsOf i = [lo, hi].take (operandsOf i).length := by
  cases tag with
  | sys =>
    cases h
    by_cases hx : x = 0x03#8 <;> simp [operandsOf, hx]
  | _ => cases h <;> simp [operandsOf]

/-- The two bytes that the decoder takes from a list of at most two begin with that list. -/
theorem take_getD_of_length_le {operands : List Byte} (h : operands.length ≤ 2) :
    [operands.getD 0 0, operands.getD 1 0].take operands.length = operands := by
  match operands, h with
  | [], _ | [_], _ | [_, _], _ => rfl

/-- The operand bytes of the instruction assembled from a list of bytes are that list, where it is of their number
(R56). -/
theorem operandsOf_of_instrOfTag {tag : IrTag} {x : Byte} {operands : List Byte} {i : Instr}
    (h : instrOfTag tag x (operands.getD 0 0) (operands.getD 1 0) = some i) (hbound : operands.length ≤ 2)
    (hlength : (operandsOf i).length = operands.length) : operandsOf i = operands := by
  rw [operandsOf_eq_take h, hlength, take_getD_of_length_le hbound]

/-! ## The obligations -/

/-- Settles O1: the instruction's row takes its operand bytes, and from them it is assembled again. -/
theorem decodeEncodeRoundTrip : Obligations.DecodeEncodeRoundTrip := by
  intro x i rest hwf
  obtain ⟨row, hrow, htag, hlength⟩ := exists_row i
  exact decode_of_row hrow (hlength x hwf) (htag ▸ instrOfTag_tagOf hwf) rest

/-- Settles O2: the tag of the decoded instruction determines the row, so opcode and operand bytes are the encoder's. -/
theorem encodeDecodeAgree : Obligations.EncodeDecodeAgree := by
  intro x bytes rest i h
  obtain ⟨op, row, operands, rfl, hrow, hlength, hi⟩ := decode_cases h
  have hwf : i.wellFormed x = true := wellFormed_of_instrOfTag hi
  obtain ⟨row', hrow', htag, hlength'⟩ := exists_row i
  obtain rfl : row' = row := decodeTable_tag_injective (lookupRow_mem hrow') (lookupRow_mem hrow)
    (htag.trans (tagOf_of_instrOfTag hi))
  have hop : opcodeOf i = op := (lookupRow_opcode hrow').symm.trans (lookupRow_opcode hrow)
  have hoperands : operandsOf i = operands :=
    operandsOf_of_instrOfTag hi (hlength ▸ operandBytes_le _ x) ((hlength' x hwf).trans hlength.symm)
  exact ⟨by rw [encode, hop, hoperands, List.cons_append], hwf⟩

/-- Settles O3: a byte has a row of the table or it is none of the eighteen opcodes. -/
theorem undefinedOpcodesRefused : Obligations.UndefinedOpcodesRefused := by
  intro x op rest
  cases hrow : lookupRow op with
  | some row =>
    have hrow' : lookupRow op ≠ none := by simp [hrow]
    exact .inl ⟨not_not.1 (mt lookupRow_eq_none_iff.2 hrow'), decode_defined hrow x _ _ rest⟩
  | none => exact .inr ⟨lookupRow_eq_none_iff.1 hrow, decode_of_no_row hrow x rest⟩

/-- Settles O4, by running the decoder on each word. -/
theorem sampleWordsDecode : Obligations.SampleWordsDecode := by
  unfold Obligations.SampleWordsDecode
  decide

end Sys2Proof
end

section
/-! PROOFS. The relative branch (43_control_system.md R94) and the Decode of an undefined opcode (40_pipeline.md R73). -/

namespace Sys2Proof.Machine

/-! ## BNE -/

/-- The target of a taken branch is the sum of PC and the signed operand, narrowed to a Word (R58). -/
theorem branchTarget_eq_ofInt (pc : Word) (rel : Byte) :
    branchTarget pc rel = BitVec.ofInt 16 ((pc.toNat : Int) + rel.toInt) := by
  rw [branchTarget, sext16, BitVec.signExtend, BitVec.ofInt_add, BitVec.ofInt_natCast, BitVec.ofNat_toNat,
    BitVec.setWidth_eq]

/-- The one sub-pulse of BNE (R94). -/
theorem exec_bne {s : State} (hpulse : s.pulse = 1) (rel : Byte) :
    exec (.bne rel) s = .next { s with pc := if s.z then s.pc else branchTarget s.pc rel }.done :=
  if_pos hpulse

/-- Settles O18: the branch target is the integer sum narrowed at the end. -/
theorem bneRelativeResult : Obligations.BneRelativeResult := by
  intro rel s hpulse
  refine ⟨rfl, fun hz => ?_, fun hz => ?_⟩
  · simp [exec_bne hpulse, hz, branchTarget_eq_ofInt]
  · rw [exec_bne hpulse, if_pos hz]

/-! ## An undefined opcode in Decode -/

/-- The step that decodes an undefined opcode raises the fault, then runs the Memory and IC phases (R73, R106). -/
theorem step_undefinedOpcode {s : State} (hactive : s.active) (hphase : s.phase = .decode)
    (hrow : lookupRow s.opcode = none) :
    step s = .next (s.tickStart.nextPulse.raise .unknownOpcode s.opcode.toNat).laterPhases := by
  have hdecode : runPhase s.tickStart.nextPulse =
      .next (s.tickStart.nextPulse.raise .unknownOpcode s.opcode.toNat) := by
    simp [runPhase, hphase, decodeStage, hrow]
  rw [step_active hactive, hdecode, andThen_next]

/-- Settles O34: the fault touches the pipeline and the log alone, and with no write pending the Memory phase changes no
cell. -/
theorem unknownOpcodeIsLogged : Obligations.UnknownOpcodeIsLogged := by
  intro s hinv hactive hphase hrow
  have hwrite : s.writePending = false := hinv.writePending.trans hactive.2
  refine ⟨_, step_undefinedOpcode hactive hphase hrow, ?_, ?_, ?_, ?_, ?_, ?_⟩
  · simp [State.arch, State.memoryTick_cells, hwrite, State.report, hphase]
  · simp
  · simp
  · simp [State.phase_eq, Stage.phase]
  · simpa using hactive.1
  · simp [hinv.waiting]

end Sys2Proof.Machine
end

section
/-! PROOFS. Single steps of the pipeline (40_pipeline.md R65 to R70, R74), and the interrupt service (60_exceptions.md
R114, R116). -/

namespace Sys2Proof.Machine

section
variable {s : State} {i : Instr}

/-! ## Execute ticks, load ticks, `done` and BRK -/

/-- In Execute the CPU phase is the micro-op of the instruction that IR and the operand latches stand for (R74). -/
theorem runPhase_execute (hp : s.phase = .execute) (hi : instrOfTag s.ir s.x s.operand0 s.operand1 = some i) :
    runPhase s = exec i s := by
  simp [runPhase, hp, executeStage, hi]

/-- An Execute tick is `exec` of the latched instruction, then the Memory and IC phases (R65, R68, R70, R74). -/
theorem step_execute (hactive : s.active) (hp : s.phase = .execute)
    (hi : instrOfTag s.ir s.x s.operand0 s.operand1 = some i) :
    step s = andThen (exec i s.tickStart.nextPulse) (fun t => .next t.laterPhases) := by
  rw [step_active hactive, runPhase_execute (i := i) (by simpa) (by simpa)]

/-- `done` without a value to write goes to InterruptCheck (R74). -/
theorem State.done_of_noValue (h : s.writeValue = none) : s.done = { s with stage := .interruptCheck, pulse := 0 } := by
  simp [State.done, State.stageAfterDone, h, State.goto]

/-- Settles O5. -/
theorem executeTickRunsExec : Obligations.ExecuteTickRunsExec :=
  fun _ _ => step_execute

/-- Settles O9: a step of the load is the Memory and IC phases alone, which touch no register of the CPU. -/
theorem cpuIdleWhileLoading : Obligations.CpuIdleWhileLoading := by
  intro s hrunning hloading
  refine ⟨_, step_loading hrunning hloading, ?_⟩
  simpa using hrunning

/-- Settles O10. -/
theorem doneGoesToWritebackIffBothSet : Obligations.DoneGoesToWritebackIffBothSet :=
  fun _ => ⟨fun _ _ => State.done_of_some, State.done_of_none, State.done_of_noValue⟩

/-- The one sub-pulse of BRK (R96). -/
theorem exec_brk (hpulse : s.pulse = 1) : exec .brk s = .next s.stop.done :=
  if_pos hpulse

/-- Settles O20. -/
theorem brkResult : Obligations.BrkResult :=
  fun _ hpulse => ⟨rfl, exec_brk hpulse⟩

/-! ## The interrupt service -/

theorem isStopKey_iff {q : Interrupt} :
    isStopKey q = true ↔ q.device = .keyboard ∧ (q.data = 0x71#8 ∨ q.data = 0x51#8) := by
  simp [isStopKey]

/-- Everything the interrupt service can do: stop on a pending stop key, or go on; the slot is cleared either way
(R116). -/
theorem State.service_cases (s : State) :
    (∃ q, s.pendingInterrupt = some q ∧ isStopKey q = true ∧ s.service.running = false ∧ s.service.waiting = []) ∨
      ((∀ q, s.pendingInterrupt = some q → isStopKey q = false) ∧ s.service.running = s.running ∧
        s.service.waiting = s.waiting) := by
  unfold State.service
  split
  next q hpending =>
    cases hkey : isStopKey q with
    | true => exact .inl ⟨q, hpending, hkey, rfl, rfl⟩
    | false =>
      refine .inr ⟨fun r hr => ?_, rfl, rfl⟩
      obtain rfl : q = r := Option.some.inj (hpending.symm.trans hr)
      exact hkey
  next hpending => exact .inr ⟨fun q hq => by simp [hpending] at hq, rfl, rfl⟩

/-- The InterruptCheck tick: the service, then Fetch (R76). -/
theorem step_interruptCheck (hactive : s.active) (hp : s.phase = .interruptCheck) :
    step s = .next (s.tickStart.nextPulse.service.goto .fetch).laterPhases := by
  rw [step_active hactive, runPhase, State.counted_phase, hp]
  rfl

/-- The InterruptCheck tick changes nothing of the architectural state. -/
theorem State.interruptCheck_arch (hwrite : s.writePending = false) :
    (s.tickStart.nextPulse.service.goto .fetch).laterPhases.arch = s.arch := by
  simp [State.arch, State.memoryTick_cells, hwrite]

/-- Of the micro-ops only BRK's stops the machine (R77, R96). -/
theorem ExecStep.tag_ne_brk {t : State} (h : ExecStep s i t) (hrunning : t.running = true) : tagOf i ≠ .brk := by
  intro htag
  cases i <;> cases htag
  cases h with
  | read hea => cases hea
  | finish => cases hrunning

/-- A sub-pulse that leaves the machine running drops no arrival, and empties the pending slot in InterruptCheck alone
(R66, R116). -/
theorem PhaseStep.interrupts {t : State} (h : PhaseStep s t) (hrunning : t.running = true) :
    t.waiting = s.waiting ∧ t.arrivals = s.arrivals ∧
      t.pendingInterrupt = if s.phase = .interruptCheck then none else s.pendingInterrupt := by
  cases h with
  | @execute i t hp hi hstep =>
    obtain ⟨-, -, -, -, -, hpending, -, -, -, -, -, harrivals, -⟩ := hstep.frame
    exact ⟨(hstep.running_eq (hstep.tag_ne_brk hrunning)).2, harrivals, by simp [hp, hpending]⟩
  | interruptCheck hp =>
    obtain ⟨-, -, -, hstopped, -⟩ | ⟨-, -, hwaiting⟩ := s.service_cases
    · exact absurd (hstopped.symm.trans hrunning) (by simp)
    · exact ⟨hwaiting, s.service_arrivals, by simp [hp]⟩
  | idle hp => rcases hp with hp | hp <;> simp [hp]
  | fetchRead hp | fetchCapture hp | operandRead hp | operandCapture hp | undefinedOpcode hp | decode hp
  | writeback hp | noWriteback hp => simp [hp]

end

/-- Settles O38: a step that goes on drops no arrival, and the IC phase puts the winner over what the slot holds. -/
theorem arrivalsBecomePending : Obligations.ArrivalsBecomePending := by
  intro s t hinv hrunning h hgoes
  obtain ⟨hstopped, -⟩ | ⟨-, hloading, rfl⟩ | ⟨⟨-, hloading⟩, u, hu, rfl⟩ := step_phases h
  · simp [hstopped] at hrunning
  · simp [hinv.waiting, hloading]
  · obtain ⟨hwaiting, harrivals, hpending⟩ := hu.interrupts (by simpa using hgoes)
    simp [hwaiting, harrivals, hpending, hinv.waiting, hloading]

/-- Settles O39, from what the interrupt service can do: the IC phase after it finds the slot empty, and of the arrivals
what the service left. -/
theorem interruptCheckServesPending : Obligations.InterruptCheckServesPending := by
  intro s hinv hactive hp
  have hwrite : s.writePending = false := hinv.writePending.trans hactive.2
  refine ⟨_, step_interruptCheck hactive hp, State.interruptCheck_arch hwrite, by simp, by simp, ?_⟩
  obtain ⟨q, hpending, hkey, hstopped, hdropped⟩ | ⟨hnokey, hkept, hwaiting⟩ := s.tickStart.nextPulse.service_cases
  · refine ⟨⟨fun _ => ⟨q, hpending, isStopKey_iff.1 hkey⟩, fun _ => by simpa using hstopped⟩, ?_, ?_, ?_, ?_⟩ <;>
      simp [hstopped, hdropped, winner]
  · have hgoes : s.tickStart.nextPulse.service.running = true := hkept.trans hactive.1
    refine ⟨⟨by simp [hgoes], fun ⟨q, hpending, hkey⟩ => ?_⟩, ?_, ?_, ?_, ?_⟩
    · have hno : isStopKey q = false := hnokey q hpending
      exact absurd ((isStopKey_iff.2 hkey).symm.trans hno) (by simp)
    all_goals simp [hgoes, hwaiting, hinv.waiting]

end Sys2Proof.Machine
end

section
/-! PROOFS. What the front end latches (30_encoding.md R55 to R61, 40_pipeline.md R71 to R73), and the placement of an
instruction (log entry 1). -/

namespace Sys2Proof.Machine

section
variable {s : State} {i : Instr}

/-- An instruction is assembled from any two bytes that begin with its operand bytes: what a latch holds beyond them
plays no part (R57 to R60). -/
theorem instrOfTag_of_take {x lo hi : Byte} (hwf : i.wellFormed x = true)
    (h : operandsOf i = [lo, hi].take (operandsOf i).length) : instrOfTag (tagOf i) x lo hi = some i := by
  rw [← instrOfTag_tagOf hwf]
  cases i with
  | ldaImm _ | ldxImm _ | ldyImm _ | bne _ | txa | tya | tax | tay | nop | brk =>
    simp_all [operandsOf, instrOfTag, tagOf]
  | ldaAbs _ | ldxAbs _ | ldyAbs _ | staAbs _ | adcAbs _ | cpxAbs _ | incAbs _ =>
    simp_all [operandsOf, instrOfTag, tagOf]
  | sys start =>
    cases start with
    | none => simp_all [Instr.wellFormed, instrOfTag, tagOf]
    | some w => simp_all [Instr.wellFormed, operandsOf, instrOfTag, tagOf]

/-- `t` is `s` with `i` in its latches and PC past it: the coming phase is its Execute. -/
structure State.Latched (i : Instr) (s t : State) : Prop where
  instr : instrOfTag t.ir t.x t.operand0 t.operand1 = some i
  opcode : t.opcode = opcodeOf i
  pc : t.pc = s.pc + BitVec.ofNat 16 (encode i).length
  frame : t = { s with
    stage := .execute, mar := t.mar, mdr := t.mdr, pc := t.pc, opcode := t.opcode, ir := t.ir,
    operand0 := t.operand0, operand1 := t.operand1 }

/-- Bytes that decode are the instruction's opcode, which has the row of its tag, and then its operand bytes (R55). -/
theorem decode_three {x b0 b1 b2 : Byte} {rest : List Byte} (h : decode x [b0, b1, b2] = .ok (i, rest)) :
    i.wellFormed x = true ∧ b0 = opcodeOf i ∧ operandsOf i = [b1, b2].take (operandsOf i).length ∧
      ∃ row, lookupRow b0 = some row ∧ row.tag = tagOf i ∧ operandBytes row.format x = (operandsOf i).length := by
  obtain ⟨hbytes, hwf⟩ := encodeDecodeAgree x _ rest i h
  obtain ⟨row, hrow, htag, hlength⟩ := exists_row i
  obtain ⟨rfl, htail⟩ := List.cons.inj hbytes
  exact ⟨hwf, rfl, by simp [htail], row, hrow, htag, (hlength x hwf).symm⟩

/-- The front end of an instruction without operand bytes. -/
theorem State.frontEnd_noOperand {b0 b1 b2 : Byte} {row : DecodeRow} (hrow : lookupRow b0 = some row)
    (hn : operandBytes row.format s.x = 0) :
    s.frontEnd b0 b1 b2 =
      { s with stage := .execute, ir := row.tag, opcode := b0, mar := s.pc, mdr := b0, pc := s.pc + 1 } := by
  simp [State.frontEnd, hrow, hn, State.fetched]

/-- The front end of an instruction of one operand byte. -/
theorem State.frontEnd_oneOperand {b0 b1 b2 : Byte} {row : DecodeRow} (hrow : lookupRow b0 = some row)
    (hn : operandBytes row.format s.x = 1) :
    s.frontEnd b0 b1 b2 =
      { s with
        stage := .execute, ir := row.tag, opcode := b0, operand0 := b1, mar := s.pc + 1, mdr := b1,
        pc := s.pc + 2 } := by
  simp [State.frontEnd, hrow, hn, State.fetched, BitVec.add_assoc]

/-- The front end of an instruction of two operand bytes. -/
theorem State.frontEnd_twoOperands {b0 b1 b2 : Byte} {row : DecodeRow} (hrow : lookupRow b0 = some row)
    (hn : operandBytes row.format s.x = 2) :
    s.frontEnd b0 b1 b2 =
      { s with
        stage := .execute, ir := row.tag, opcode := b0, operand0 := b1, operand1 := b2, mar := s.pc + 2, mdr := b2,
        pc := s.pc + 3 } := by
  simp [State.frontEnd, hrow, hn, State.fetched, BitVec.add_assoc]

/-- The model's front end latches the instruction that its three bytes decode to. -/
theorem State.frontEnd_latched {b0 b1 b2 : Byte} {rest : List Byte} (h : decode s.x [b0, b1, b2] = .ok (i, rest)) :
    State.Latched i s (s.frontEnd b0 b1 b2) := by
  obtain ⟨hwf, hopcode, hoperands, row, hrow, htag, hn⟩ := decode_three h
  have hinstr := fun lo hi => instrOfTag_of_take (lo := lo) (hi := hi) hwf
  have hencode : (encode i).length = (operandsOf i).length + 1 := rfl
  have hlength : (operandsOf i).length ≤ 2 := by rw [hoperands]; simp
  rw [← htag] at hinstr
  generalize (operandsOf i).length = N at *
  obtain rfl | rfl | rfl : N = 0 ∨ N = 1 ∨ N = 2 := by omega
  on_goal 1 => rw [State.frontEnd_noOperand hrow hn]
  on_goal 2 => rw [State.frontEnd_oneOperand hrow hn]
  on_goal 3 => rw [State.frontEnd_twoOperands hrow hn]
  all_goals exact ⟨hinstr _ _ (by simpa using hoperands), hopcode, by rw [hencode]; rfl, rfl⟩

/-- The coming phase is Execute of `i`: every operand byte is there, no transaction is pending and no write deferred. -/
structure State.Executing (i : Instr) (s : State) : Prop extends s.Quiet where
  active : s.active
  stage : s.stage = .execute
  writePending : s.writePending = false
  instr : instrOfTag s.ir s.x s.operand0 s.operand1 = some i

theorem State.Executing.phase (h : s.Executing i) : s.phase = .execute :=
  (State.phase_of_fetchCount h.fetchCount).trans (by rw [h.stage]; rfl)

/-- The latched instruction is about to execute where the machine was at an instruction boundary. -/
theorem State.Latched.executing {t : State} (h : State.Latched i s t) (hquiet : s.Quiet) (hactive : s.active)
    (hwrite : s.writePending = false) : t.Executing i := by
  obtain ⟨hf, hc, ha, hv⟩ := hquiet
  have hframe := h.frame
  exact
    { fetchCount := (congrArg State.fetchCount hframe).trans hf
      currentFetch := (congrArg State.currentFetch hframe).trans hc
      writeAddress := (congrArg State.writeAddress hframe).trans ha
      writeValue := (congrArg State.writeValue hframe).trans hv
      active := ⟨(congrArg State.running hframe).trans hactive.1, (congrArg State.isLoading hframe).trans hactive.2⟩
      stage := congrArg State.stage hframe
      writePending := (congrArg State.writePending hframe).trans hwrite
      instr := h.instr }

/-- Latching an instruction changes nothing of the architectural state but PC. -/
theorem State.Latched.arch {t : State} (h : State.Latched i s t) :
    t.arch = { s.arch with pc := s.pc + BitVec.ofNat 16 (encode i).length } :=
  (congrArg State.arch h.frame).trans (by rw [h.pc]; rfl)

/-! ## Placing an instruction -/

/-- Storing bytes changes the cells alone. -/
theorem State.placeBytes_frame (s : State) (addr : Word) (bytes : List Byte) :
    s.placeBytes addr bytes = { s with cells := (s.placeBytes addr bytes).cells } := by
  induction bytes generalizing s addr with
  | nil => rfl
  | cons b rest ih => rw [State.placeBytes, ih]; rfl

/-- The instruction boundary at which an instruction is placed, with the registers of `s` but for X. -/
def State.placing (s : State) (x : Byte) (cells : List Host.Cell) : State := { s.atFetch with x := x, cells := cells }

/-- A placed instruction is latched from an instruction boundary. -/
theorem State.withFetchWord_latched {nbits w : Nat} {rest : List Byte}
    (h : decode (tableX nbits w s.x) [tableByte nbits w 0, tableByte nbits w 1, tableByte nbits w 2] = .ok (i, rest)) :
    ∃ cells, State.Latched i (s.placing (tableX nbits w s.x) cells) (s.withFetchWord nbits w) := by
  refine ⟨(State.placeBytes { s.atFetch with x := tableX nbits w s.x } s.pc
    [tableByte nbits w 0, tableByte nbits w 1, tableByte nbits w 2]).cells, ?_⟩
  rw [State.withFetchWord, State.placeBytes_frame]
  exact State.frontEnd_latched h

end

/-- Settles O7: placing an instruction latches it at an instruction boundary, and in Execute a step is its `exec`. -/
theorem placedInstructionRunsNext : Obligations.PlacedInstructionRunsNext := by
  intro s nbits w i rest h
  obtain ⟨cells, hlatched⟩ := State.withFetchWord_latched h
  have hexec : (s.withFetchWord nbits w).Executing i :=
    hlatched.executing ⟨rfl, rfl, rfl, rfl⟩ ⟨rfl, rfl⟩ rfl
  have hframe := hlatched.frame
  exact ⟨step_execute hexec.active hexec.phase hexec.instr, (congrArg State.pulse hframe).trans rfl, hlatched.pc,
    (congrArg State.a hframe).trans rfl, (congrArg State.y hframe).trans rfl, (congrArg State.z hframe).trans rfl,
    (congrArg State.c hframe).trans rfl⟩

end Sys2Proof.Machine
end

section
/-! PROOFS. Runs of several ticks, and the ticks of Fetch, Decode and the operand-fetch stall (40_pipeline.md R71 to R73).
What a tick changes besides the work of its CPU phase, the Memory unit's latches, the Clock and the interrupts, is set
apart, so that a run is written as that work alone. -/

namespace Sys2Proof.Machine

/-! ## Runs up to what every tick may change -/

/-- What a tick may change whatever its CPU phase does. -/
structure Volatile where
  mar : Word
  mdr : Byte
  readCompleted : Bool
  tickCount : Nat
  pendingInterrupt : Option Interrupt
  waiting : List Interrupt
  arrivals : List (List Interrupt)

/-- What `s` holds of it. -/
def State.volatile (s : State) : Volatile :=
  ⟨s.mar, s.mdr, s.readCompleted, s.tickCount, s.pendingInterrupt, s.waiting, s.arrivals⟩

/-- `s` between ticks outside a load: no transaction is pending, and what every tick may change is `v`. -/
def State.afterTick (s : State) (v : Volatile) : State :=
  { s with
    mar := v.mar, mdr := v.mdr, readCompleted := v.readCompleted, tickCount := v.tickCount,
    pendingInterrupt := v.pendingInterrupt, waiting := v.waiting, arrivals := v.arrivals,
    readPending := false, writePending := false }

/-- What the start of a tick, the Clock and the arrivals, makes of `v` (R65, R66). -/
def Volatile.tickStart (v : Volatile) : Volatile :=
  { v with tickCount := v.tickCount + 1, waiting := v.waiting ++ v.arrivals.headD [], arrivals := v.arrivals.tail }

/-- `n` steps from `s` end in `t`, but for what every tick may change. -/
def Reaches (n : Nat) (s t : State) : Prop := ∃ v, run n s = .next (t.afterTick v)

@[simp] theorem State.afterTick_a (s : State) (v : Volatile) : (s.afterTick v).a = s.a := rfl
@[simp] theorem State.afterTick_x (s : State) (v : Volatile) : (s.afterTick v).x = s.x := rfl
@[simp] theorem State.afterTick_opcode (s : State) (v : Volatile) : (s.afterTick v).opcode = s.opcode := rfl
@[simp] theorem State.afterTick_pulse (s : State) (v : Volatile) : (s.afterTick v).pulse = s.pulse := rfl
@[simp] theorem State.afterTick_writeAddress (s : State) (v : Volatile) : (s.afterTick v).writeAddress = s.writeAddress :=
  rfl
@[simp] theorem State.afterTick_writeValue (s : State) (v : Volatile) : (s.afterTick v).writeValue = s.writeValue := rfl
@[simp] theorem State.afterTick_mdr (s : State) (v : Volatile) : (s.afterTick v).mdr = v.mdr := rfl
@[simp] theorem State.afterTick_readCompleted (s : State) (v : Volatile) : (s.afterTick v).readCompleted = v.readCompleted :=
  rfl
@[simp] theorem State.afterTick_phase (s : State) (v : Volatile) : (s.afterTick v).phase = s.phase := rfl
@[simp] theorem State.nextPulse_phase (s : State) : s.nextPulse.phase = s.phase := rfl

section
variable {s t u : State} {m n : Nat} {v : Volatile} {a : Word} {b : Byte}

/-- Where no transaction is pending a state is one between ticks. -/
theorem State.afterTick_volatile (hread : s.readPending = false) (hwrite : s.writePending = false) :
    s.afterTick s.volatile = s := by
  cases s
  simp_all [State.afterTick, State.volatile]

theorem Reaches.trans (h : Reaches m s t) (h' : ∀ v, Reaches n (t.afterTick v) u) : Reaches (m + n) s u := by
  obtain ⟨v, hv⟩ := h
  obtain ⟨w, hw⟩ := h' v
  exact ⟨w, by rw [run_add, hv, andThen_next, hw]⟩

theorem Reaches.congr (h : Reaches n s t) (ht : ∀ v, t.afterTick v = u.afterTick v) : Reaches n s u := by
  obtain ⟨v, hv⟩ := h
  exact ⟨v, by rw [hv, ht]⟩

/-- An acting tick from a state between ticks: its CPU phase, then the Memory and IC phases (R65). -/
theorem run_one (hactive : s.active) (h : runPhase (s.nextPulse.afterTick v.tickStart) = .next u) :
    run 1 (s.afterTick v) = .next u.laterPhases := by
  have hstart : (s.afterTick v).tickStart.nextPulse = s.nextPulse.afterTick v.tickStart := rfl
  rw [run, step_active (s := s.afterTick v) hactive, hstart, h]
  rfl

/-- With no write pending the Memory phase changes latches alone (R39). -/
theorem State.laterPhases_of_noWrite (h : s.writePending = false) :
    s.laterPhases = s.afterTick s.laterPhases.volatile := by
  rw [State.laterPhases_frame]
  simp [State.afterTick, State.volatile, State.memoryTick, State.commitWrite, State.serveRead, h]

/-- A tick whose CPU phase makes no transaction. -/
theorem reaches_one (hactive : s.active)
    (h : ∃ w, runPhase (s.nextPulse.afterTick v.tickStart) = .next (u.afterTick w)) : Reaches 1 (s.afterTick v) u := by
  obtain ⟨w, hw⟩ := h
  refine ⟨(u.afterTick w).laterPhases.volatile, ?_⟩
  rw [run_one hactive hw, State.laterPhases_of_noWrite rfl]
  rfl

/-- A tick whose CPU phase queues a write, which the Memory phase commits (R42, R44). -/
theorem reaches_write (hactive : s.active) (hloading : u.isLoading = false)
    (h : ∃ w, runPhase (s.nextPulse.afterTick v.tickStart) = .next ((u.afterTick w).writeImmediate a b)) :
    Reaches 1 (s.afterTick v) (u.setCell a b) := by
  obtain ⟨w, hw⟩ := h
  refine ⟨((u.afterTick w).writeImmediate a b).laterPhases.volatile, ?_⟩
  rw [run_one hactive hw, State.laterPhases, State.memoryTick_writeImmediate (s := u.afterTick w) hloading rfl]
  rfl

/-- A tick whose CPU phase triggers a read, and a second one, which has the byte that was read (R44). -/
theorem reaches_read (hactive : s.active)
    (h : ∀ v, runPhase (s.nextPulse.afterTick v) = .next ((s.nextPulse.afterTick v).triggerRead a))
    (h' : ∀ v, v.mdr = s.cell a → v.readCompleted = true → ∃ w,
      runPhase (s.nextPulse.nextPulse.afterTick v) = .next (u.afterTick w))
    (v : Volatile) : Reaches 2 (s.afterTick v) u := by
  let w := ((s.nextPulse.afterTick v.tickStart).triggerRead a).laterPhases.volatile
  have hfirst : run 1 (s.afterTick v) = .next (s.nextPulse.afterTick w) := by
    rw [run_one hactive (h _), State.laterPhases_of_noWrite rfl]
    rfl
  have hmemory := State.memoryTick_triggerRead (s := s.nextPulse.afterTick v.tickStart) rfl a
  have hmdr : w.mdr = s.cell a := congrArg State.mdr hmemory
  have hread : w.readCompleted = true := congrArg State.readCompleted hmemory
  obtain ⟨w', hsecond⟩ : Reaches 1 (s.nextPulse.afterTick w) u := reaches_one hactive (h' w.tickStart hmdr hread)
  exact ⟨w', by rw [run_add 1 1, hfirst, andThen_next, hsecond]⟩

/-! ## The sub-pulses of Fetch, Decode and the operand-fetch stall -/

theorem runPhase_fetch (hp : s.phase = .fetch) : runPhase s = fetchStage s := by
  rw [runPhase, hp]

theorem runPhase_operandFetch (hp : s.phase = .operandFetch) : runPhase s = stall s := by
  rw [runPhase, hp]

theorem runPhase_decode {row : DecodeRow} (hp : s.phase = .decode) (hrow : lookupRow s.opcode = some row) :
    runPhase s = .next ((s.decoded row).goto .execute) := by
  simp [runPhase, hp, decodeStage, hrow]

theorem fetchStage_first (hpulse : s.pulse = 1) : fetchStage s = .next (s.triggerRead s.pc) :=
  if_pos hpulse

theorem fetchStage_second (hpulse : s.pulse = 2) (hread : s.readCompleted = true) :
    fetchStage s = .next ((s.captureOpcode s.mdr).goto .decode) := by
  simp [fetchStage, withMdr, hpulse, hread]

theorem stall_first (hpulse : s.pulse = 1) : stall s = .next (s.triggerRead s.pc) :=
  if_pos hpulse

theorem stall_second (hpulse : s.pulse = 2) (hread : s.readCompleted = true) :
    stall s = .next (s.captureOperand s.mdr) := by
  simp [stall, withMdr, hpulse, hread]

/-! ## The ticks of Fetch, Decode and the operand-fetch stall -/

/-- The two ticks of Fetch (R72). -/
theorem reaches_fetch (hactive : s.active) (hp : s.phase = .fetch) (hpulse : s.pulse = 0) (v : Volatile) :
    Reaches 2 (s.afterTick v) ((s.captureOpcode (s.cell s.pc)).goto .decode) := by
  refine reaches_read hactive (a := s.pc) (fun v => ?_) (fun v hmdr hread => ⟨v, ?_⟩) v
  · rw [runPhase_fetch (by simpa using hp), fetchStage_first (by simp [hpulse])]
    rfl
  · rw [runPhase_fetch (by simpa using hp), fetchStage_second (by simp [hpulse]) hread, State.afterTick_mdr, hmdr]
    rfl

/-- The tick of Decode (R73). -/
theorem reaches_decode {row : DecodeRow} (hactive : s.active) (hp : s.phase = .decode)
    (hrow : lookupRow s.opcode = some row) (v : Volatile) :
    Reaches 1 (s.afterTick v) ((s.decoded row).goto .execute) := by
  refine reaches_one hactive ⟨v.tickStart, ?_⟩
  rw [runPhase_decode (by simpa using hp) (by simpa using hrow)]
  rfl

/-- The two ticks in which the stall captures a byte (R71). -/
theorem reaches_operand (hactive : s.active) (hstall : s.currentFetch < s.fetchCount) (hpulse : s.pulse = 0)
    (v : Volatile) : Reaches 2 (s.afterTick v) (s.captureOperand (s.cell s.pc)) := by
  have hp : s.phase = .operandFetch := State.phase_eq_operandFetch_iff.2 ⟨by omega, hstall⟩
  refine reaches_read hactive (a := s.pc) (fun v => ?_) (fun v hmdr hread => ⟨v, ?_⟩) v
  · rw [runPhase_operandFetch (by simpa using hp), stall_first (by simp [hpulse])]
    rfl
  · rw [runPhase_operandFetch (by simpa using hp), stall_second (by simp [hpulse]) hread, State.afterTick_mdr, hmdr]
    rfl

end

end Sys2Proof.Machine
end

section
/-! PROOFS. The front end, from an instruction boundary to the first Execute tick (40_pipeline.md R71 to R73). -/

namespace Sys2Proof.Machine

section
variable {s : State} {i : Instr}

theorem State.boundary.active (h : s.boundary) : s.active := ⟨h.running, h.notLoading⟩

theorem State.boundary.quiet (h : s.boundary) : s.Quiet :=
  ⟨h.fetchCount, h.currentFetch, h.writeAddress, h.writeValue⟩

theorem State.boundary.phase (h : s.boundary) : s.phase = .fetch :=
  (State.phase_of_fetchCount h.fetchCount).trans (by rw [h.stage]; rfl)

/-- The stall of an instruction of one operand byte (R71). -/
theorem reaches_oneOperand {lo : Byte} (hactive : s.active) (hf : s.fetchCount = 1) (hc : s.currentFetch = 0)
    (hpulse : s.pulse = 0) (hlo : s.cell s.pc = lo) (v : Volatile) :
    Reaches 2 (s.afterTick v) { s with operand0 := lo, pc := s.pc + 1, fetchCount := 0 } := by
  refine (reaches_operand hactive (by omega) hpulse v).congr fun v => ?_
  simp [State.afterTick, State.lastOperand, hf, hc, hpulse, hlo]

/-- The stall of an instruction of two operand bytes (R71). -/
theorem reaches_twoOperands {lo hi : Byte} (hactive : s.active) (hf : s.fetchCount = 2) (hc : s.currentFetch = 0)
    (hpulse : s.pulse = 0) (hlo : s.cell s.pc = lo) (hhi : s.cell (s.pc + 1) = hi) (v : Volatile) :
    Reaches 4 (s.afterTick v) { s with operand0 := lo, operand1 := hi, pc := s.pc + 2, fetchCount := 0 } := by
  have hfirst := reaches_operand hactive (by omega) hpulse v
  have hsecond := reaches_operand (s := s.captureOperand (s.cell s.pc)) hactive
    (by simp [State.lastOperand, hf, hc]) rfl
  have hcell : (s.captureOperand (s.cell s.pc)).cell (s.pc + 1) = hi := hhi
  refine (hfirst.trans hsecond).congr fun v => ?_
  rw [State.captureOperand_pc, hcell]
  simp [State.afterTick, State.lastOperand, hf, hc, hpulse, hlo, BitVec.add_assoc]

/-- From an instruction boundary Fetch and Decode take an opcode of the table in three ticks (R72, R73). -/
theorem reaches_decoded {row : DecodeRow} (h : s.boundary) (hrow : lookupRow (s.cell s.pc) = some row) :
    Reaches 3 s { s with
      opcode := s.cell s.pc, pc := s.pc + 1, ir := row.tag, stage := .execute,
      fetchCount := operandBytes row.format s.x } := by
  have hfetch := reaches_fetch h.active h.phase h.pulse s.volatile
  rw [State.afterTick_volatile h.readPending h.writePending] at hfetch
  have hdecode := reaches_decode (s := (s.captureOpcode (s.cell s.pc)).goto .decode) h.active
    (State.phase_of_fetchCount h.fetchCount) hrow
  refine (hfetch.trans hdecode).congr fun v => ?_
  simp [State.afterTick, State.goto, h.pulse, h.currentFetch]

/-- From an instruction boundary the pipeline comes in 2N + 3 ticks to the state that the model's placement leaves
(log entry 1). -/
theorem reaches_frontEnd {rest : List Byte} (h : s.boundary) (hdecode : decode s.x s.codeBytes = .ok (i, rest)) :
    Reaches (3 + 2 * (operandsOf i).length) s
      (s.frontEnd (s.cell s.pc) (s.cell (s.pc + 1)) (s.cell (s.pc + 2))) := by
  obtain ⟨-, -, hoperands, row, hrow, -, hn⟩ := decode_three hdecode
  have hlength : (operandsOf i).length ≤ 2 := by rw [hoperands]; simp
  have hdecoded := reaches_decoded h hrow
  rw [← hn] at hlength ⊢
  obtain hN | hN | hN : operandBytes row.format s.x = 0 ∨ operandBytes row.format s.x = 1 ∨
    operandBytes row.format s.x = 2 := by omega
  all_goals rw [hN] at hdecoded ⊢
  · refine hdecoded.congr fun v => ?_
    rw [State.frontEnd_noOperand hrow hN]
    simp [State.afterTick, h.fetchCount]
  · refine (hdecoded.trans
      (reaches_oneOperand (lo := s.cell (s.pc + 1)) h.active rfl h.currentFetch h.pulse rfl)).congr fun v => ?_
    rw [State.frontEnd_oneOperand hrow hN]
    simp [State.afterTick, h.fetchCount, BitVec.add_assoc]
  · refine (hdecoded.trans (reaches_twoOperands (lo := s.cell (s.pc + 1)) (hi := s.cell (s.pc + 1 + 1))
      h.active rfl h.currentFetch h.pulse rfl rfl)).congr fun v => ?_
    rw [State.frontEnd_twoOperands hrow hN]
    simp [State.afterTick, h.fetchCount, BitVec.add_assoc]

/-- From an instruction boundary the pipeline comes in 2N + 3 ticks to the Execute of the instruction at PC. -/
theorem reaches_executing {rest : List Byte} (h : s.boundary) (hdecode : decode s.x s.codeBytes = .ok (i, rest)) :
    ∃ t, Reaches (3 + 2 * (operandsOf i).length) s t ∧ State.Latched i s t ∧ t.Executing i ∧ t.pulse = 0 := by
  have hlatched := State.frontEnd_latched hdecode
  exact ⟨_, reaches_frontEnd h hdecode, hlatched, hlatched.executing h.quiet h.active h.writePending,
    (congrArg State.pulse hlatched.frame).trans h.pulse⟩

end

/-- Settles O6: the front end ends in the state of the placement, which has the instruction latched. -/
theorem frontEndLatchesInstruction : Obligations.FrontEndLatchesInstruction := by
  intro s i rest h hdecode
  obtain ⟨t, ⟨v, hrun⟩, hlatched, hexec, hpulse⟩ := reaches_executing h hdecode
  rw [add_comm] at hrun
  exact ⟨_, hrun, hexec.active, hexec.phase, hpulse, hlatched.opcode, (tagOf_of_instrOfTag hexec.instr).symm,
    hexec.instr, hlatched.arch, hexec.writeAddress, hexec.writeValue, rfl, rfl⟩

end Sys2Proof.Machine
end

section
/-! PROOFS. The ticks of Execute and Writeback (40_pipeline.md R74, R75), and the instruction-level summary that they
carry out. -/

namespace Sys2Proof.Machine

section
variable {s : State} {i : Instr}

/-! ## The work of the last sub-pulse -/

/-- No micro-op computes with the count of the sub-pulse, which `done` sets back (R69). -/
theorem lastAction_nextPulse (i : Instr) (m : Byte) (s : State) :
    (lastAction i m s.nextPulse).done = (lastAction i m s).done := by
  have hkept : lastAction i m s.nextPulse = (lastAction i m s).nextPulse := by cases i <;> rfl
  rw [hkept]
  rfl

/-- The work of the last sub-pulse computes with nothing that every tick may change. -/
theorem lastAction_afterTick (i : Instr) (m : Byte) (s : State) (v : Volatile) :
    ∃ w, (lastAction i m (s.afterTick v)).done = (lastAction i m s).done.afterTick w := by
  have hkept : ∃ w, lastAction i m (s.afterTick v) = (lastAction i m s).afterTick w := by
    cases i with
    | brk => exact ⟨{ v with waiting := [] }, rfl⟩
    | _ => exact ⟨v, rfl⟩
  obtain ⟨w, hw⟩ := hkept
  exact ⟨w, by rw [hw]; rfl⟩

theorem cpxZ_eq (x m : Byte) : cpxZ x m = (x == m) := by
  rw [cpxZ, cpxDiff, Bool.eq_iff_iff, beq_iff_eq, beq_iff_eq]
  exact sub_eq_zero

/-- The last sub-pulse does what the summary says, for every instruction that neither stores nor calls the system. -/
theorem lastAction_arch {m : Byte} (hsta : tagOf i ≠ .staAbs) (hinc : tagOf i ≠ .incAbs) (hsys : tagOf i ≠ .sys)
    (hm : ∀ ea, readAddress i = some ea → m = s.cell ea) :
    (lastAction i m s).arch = effect s.useCarry i s.arch := by
  cases i with
  | ldaAbs ea | ldxAbs ea | ldyAbs ea | adcAbs ea => rw [hm ea rfl]; rfl
  | cpxAbs ea =>
    rw [hm ea rfl, lastAction, cpxZ_eq]
    rfl
  | bne rel => cases hz : s.z <;> simp [lastAction, effect, State.arch, hz, branchTarget, sext16]
  | staAbs _ => exact absurd rfl hsta
  | incAbs _ => exact absurd rfl hinc
  | sys _ => exact absurd rfl hsys
  | ldaImm _ | ldxImm _ | ldyImm _ | txa | tya | tax | tay | nop | brk => rfl

/-- Only INC defers a write (R92). -/
theorem State.Executing.lastAction_quiet (h : s.Executing i) (hinc : tagOf i ≠ .incAbs) (m : Byte) :
    (lastAction i m s).Quiet := by
  obtain ⟨⟨hf, hc, ha, hv⟩, -⟩ := h
  cases i with
  | incAbs _ => exact absurd rfl hinc
  | _ => exact ⟨hf, hc, ha, hv⟩

/-- `done` with no write deferred goes to InterruptCheck. -/
theorem State.Quiet.done_phase (h : s.Quiet) : s.done.phase = .interruptCheck := by
  rw [State.phase_of_fetchCount (by simpa using h.fetchCount), State.done_of_none h.writeAddress]
  rfl

/-! ## The sub-pulses of STA, of SYS and of Writeback -/

theorem exec_staAbs_first {ea : Word} (hpulse : s.pulse = 1) :
    exec (.staAbs ea) s = .next (s.writeImmediate ea s.a) :=
  if_pos hpulse

theorem exec_staAbs_second {ea : Word} (hpulse : s.pulse = 2) : exec (.staAbs ea) s = .next s.done := by
  simp [exec, execStaAbs, hpulse]

theorem exec_sys_printInt {start : Option Word} (hpulse : s.pulse = 1) (hx : s.x = 0x01#8) :
    exec (.sys start) s = .next (s.emit (decimal s.y)).done := by
  simp [exec, execSys, hx, sysPrintInt, onePulse, hpulse]

theorem exec_sys_invalid {start : Option Word} (hpulse : s.pulse = 1) (hx : s.x ∉ [0x01#8, 0x02#8, 0x03#8]) :
    exec (.sys start) s = .next (s.raise .invalidSyscall s.x.toNat) := by
  obtain ⟨hx1, hx2, hx3⟩ : s.x ≠ 0x01#8 ∧ s.x ≠ 0x02#8 ∧ s.x ≠ 0x03#8 := by simpa using hx
  simp [exec, execSys, hx1, hx2, hx3, sysInvalid, hpulse]

theorem runPhase_writeback {a : Word} {b : Byte} (hp : s.phase = .writeback) (ha : s.writeAddress = some a)
    (hb : s.writeValue = some b) :
    runPhase s = .next ((s.clearDeferred.goto .interruptCheck).writeImmediate a b) := by
  simp [runPhase, hp, writebackStage, ha, hb]

/-! ## The ticks of Execute -/

/-- Counting a sub-pulse leaves the instruction in its latches. -/
theorem State.Executing.nextPulse (h : s.Executing i) : s.nextPulse.Executing i :=
  { h with toQuiet := ⟨h.fetchCount, h.currentFetch, h.writeAddress, h.writeValue⟩ }

/-- The CPU phase of a tick that executes `i`. -/
theorem State.Executing.runPhase_eq (h : s.Executing i) (v : Volatile) :
    runPhase (s.afterTick v) = exec i (s.afterTick v) :=
  runPhase_execute h.phase h.instr

/-- The one tick of an instruction whose micro-op has one sub-pulse. -/
theorem reaches_onePulse (h : s.Executing i) (hpulse : s.pulse = 0) (hsys : tagOf i ≠ .sys) (hlast : lastPulse i = 1)
    (m : Byte) (v : Volatile) : Reaches 1 (s.afterTick v) (lastAction i m s).done := by
  have hexec (t : State) (ht : t.pulse = 1) : exec i t = .next (lastAction i m t).done := by
    cases i with
    | sys _ => exact absurd rfl hsys
    | ldaImm _ | ldxImm _ | ldyImm _ | txa | tya | tax | tay | bne _ | nop | brk => exact if_pos ht
    | _ => cases hlast
  obtain ⟨w, hw⟩ := lastAction_afterTick i m s.nextPulse v.tickStart
  refine reaches_one h.active ⟨w, ?_⟩
  rw [h.nextPulse.runPhase_eq, hexec _ (by simp [hpulse]), hw, lastAction_nextPulse]

/-- The two ticks of an instruction whose micro-op reads its operand. -/
theorem reaches_readOperand {ea : Word} (h : s.Executing i) (hpulse : s.pulse = 0) (hea : readAddress i = some ea)
    (v : Volatile) : Reaches 2 (s.afterTick v) (lastAction i (s.cell ea) s).done := by
  have hexec (t : State) : exec i t = readThen t ea (lastAction i) := by
    cases i <;> cases hea <;> rfl
  refine reaches_read h.active (a := ea) (fun v => ?_) (fun v hmdr hread => ?_) v
  · rw [h.nextPulse.runPhase_eq, hexec, readThen, if_pos (by simp [hpulse])]
  · obtain ⟨w, hw⟩ := lastAction_afterTick i (s.cell ea) s.nextPulse.nextPulse v
    refine ⟨w, ?_⟩
    rw [h.nextPulse.nextPulse.runPhase_eq, hexec, readThen, if_neg (by simp [hpulse]), if_pos (by simp [hpulse]),
      withMdr, if_pos (by simpa using hread), State.afterTick_mdr, hmdr, hw, lastAction_nextPulse, lastAction_nextPulse]

/-- The two ticks of STA (R85). -/
theorem reaches_store {ea : Word} (h : s.Executing (.staAbs ea)) (hpulse : s.pulse = 0) (v : Volatile) :
    Reaches 2 (s.afterTick v) (s.setCell ea s.a).done := by
  have hfirst : Reaches 1 (s.afterTick v) (s.nextPulse.setCell ea s.a) :=
    reaches_write h.active h.active.2
      ⟨v.tickStart, by rw [h.nextPulse.runPhase_eq, exec_staAbs_first (by simp [hpulse])]; simp⟩
  have hsecond : (s.nextPulse.setCell ea s.a).Executing (.staAbs ea) :=
    { h with toQuiet := ⟨h.fetchCount, h.currentFetch, h.writeAddress, h.writeValue⟩ }
  refine hfirst.trans fun v => reaches_one hsecond.active ⟨v.tickStart, ?_⟩
  rw [hsecond.nextPulse.runPhase_eq, exec_staAbs_second (by simp [hpulse])]
  rfl

/-- Writeback goes to InterruptCheck (R75). -/
theorem State.writeback_phase {a : Word} {b : Byte} (hf : s.fetchCount = 0) :
    ((s.clearDeferred.goto .interruptCheck).setCell a b).phase = .interruptCheck :=
  State.phase_of_fetchCount hf

/-- The tick of Writeback (R75). -/
theorem reaches_writeback {a : Word} {b : Byte} (hactive : s.active) (hp : s.phase = .writeback)
    (ha : s.writeAddress = some a) (hb : s.writeValue = some b) (v : Volatile) :
    Reaches 1 (s.afterTick v) ((s.clearDeferred.goto .interruptCheck).setCell a b) := by
  refine reaches_write hactive (by simpa using hactive.2) ⟨v.tickStart, ?_⟩
  rw [runPhase_writeback (by simpa using hp) (by simpa using ha) (by simpa using hb)]
  rfl

/-! ## The summary -/

/-- The ticks of an instruction other than BRK, a string print and an invalid SYS between its operand fetch and its
InterruptCheck: those of its micro-op, and for INC the Writeback. -/
def executeTicks (i : Instr) : Nat :=
  match i with
  | .incAbs _ => 3
  | _ => lastPulse i

/-- `i` goes through Writeback or straight to InterruptCheck: it is neither BRK nor, under X = `x`, a string print or an
invalid SYS. -/
def endsInInterruptCheck (i : Instr) (x : Byte) : Prop := i ≠ .brk ∧ (tagOf i = .sys → x = 0x01#8)

theorem ticksOf_eq {x : Byte} (hwf : i.wellFormed x = true) (hends : endsInInterruptCheck i x) :
    ticksOf i x = 3 + 2 * (operandsOf i).length + executeTicks i + 1 := by
  obtain ⟨hbrk, hsys⟩ := hends
  cases i with
  | brk => exact absurd rfl hbrk
  | sys start =>
    obtain rfl := hsys rfl
    cases start with
    | none => rfl
    | some _ => cases hwf
  | _ => rfl

/-- `t` is before the InterruptCheck of `i` with the effect of `i` on `s`. -/
structure State.EffectDone (i : Instr) (s t : State) : Prop where
  active : t.active
  phase : t.phase = .interruptCheck
  arch : t.arch = effect s.useCarry i s.arch

theorem lastAction_effectDone {m : Byte} (h : s.Executing i) (hbrk : tagOf i ≠ .brk) (hsta : tagOf i ≠ .staAbs)
    (hinc : tagOf i ≠ .incAbs) (hsys : tagOf i ≠ .sys) (hm : ∀ ea, readAddress i = some ea → m = s.cell ea) :
    State.EffectDone i s (lastAction i m s).done where
  active := by
    cases i with
    | brk => exact absurd rfl hbrk
    | _ => exact h.active
  phase := (h.lastAction_quiet hinc m).done_phase
  arch := lastAction_arch hsta hinc hsys hm

theorem store_effectDone {ea : Word} (h : s.Executing (.staAbs ea)) :
    State.EffectDone (.staAbs ea) s (s.setCell ea s.a).done where
  active := h.active
  phase := State.Quiet.done_phase ⟨h.fetchCount, h.currentFetch, h.writeAddress, h.writeValue⟩
  arch := rfl

theorem printInt_effectDone {start : Option Word} (h : s.Executing (.sys start)) (hx : s.x = 0x01#8) :
    State.EffectDone (.sys start) s (s.emit (decimal s.y)).done where
  active := h.active
  phase := State.Quiet.done_phase ⟨h.fetchCount, h.currentFetch, h.writeAddress, h.writeValue⟩
  arch := (if_pos hx).symm

/-- The tick of SYS with X = 1 (R98). -/
theorem reaches_printInt {start : Option Word} (h : s.Executing (.sys start)) (hpulse : s.pulse = 0)
    (hx : s.x = 0x01#8) (v : Volatile) : Reaches 1 (s.afterTick v) (s.emit (decimal s.y)).done := by
  refine reaches_one h.active ⟨v.tickStart, ?_⟩
  rw [h.nextPulse.runPhase_eq, exec_sys_printInt (by simp [hpulse]) (by simpa using hx)]
  rfl

/-- The work of INC's last sub-pulse: the deferred write, and Writeback to come (R92). -/
theorem lastAction_inc_done (ea : Word) (m : Byte) (s : State) :
    (lastAction (.incAbs ea) m s).done =
      { s with writeAddress := some ea, writeValue := some (incResult m), stage := .writeback, pulse := 0 } :=
  State.done_of_some rfl rfl

/-- The three ticks of INC: the read of its operand, and Writeback (R75, R92). -/
theorem reaches_inc {ea : Word} (h : s.Executing (.incAbs ea)) (hpulse : s.pulse = 0) :
    ∃ t, (∀ v, Reaches 3 (s.afterTick v) t) ∧ State.EffectDone (.incAbs ea) s t := by
  have hread := reaches_readOperand h hpulse rfl
  rw [lastAction_inc_done] at hread
  exact ⟨_, fun v => (hread v).trans
      (reaches_writeback h.active (State.phase_of_fetchCount h.fetchCount) rfl rfl),
    h.active, State.writeback_phase h.fetchCount, rfl⟩

/-- An instruction comes to its InterruptCheck with the effect that the summary gives it (R79 to R98). -/
theorem reaches_interruptCheck (h : s.Executing i) (hpulse : s.pulse = 0) (hends : endsInInterruptCheck i s.x) :
    ∃ t, (∀ v, Reaches (executeTicks i) (s.afterTick v) t) ∧ State.EffectDone i s t := by
  obtain ⟨hbrk, hsys⟩ := hends
  cases i with
  | brk => exact absurd rfl hbrk
  | staAbs ea => exact ⟨_, reaches_store h hpulse, store_effectDone h⟩
  | incAbs ea => exact reaches_inc h hpulse
  | sys start => exact ⟨_, reaches_printInt h hpulse (hsys rfl), printInt_effectDone h (hsys rfl)⟩
  | ldaAbs ea | ldxAbs ea | ldyAbs ea | adcAbs ea | cpxAbs ea =>
    exact ⟨_, reaches_readOperand h hpulse rfl, lastAction_effectDone h (by simp [tagOf]) (by simp [tagOf])
      (by simp [tagOf]) (by simp [tagOf]) (by simp [readAddress])⟩
  | ldaImm _ | ldxImm _ | ldyImm _ | txa | tya | tax | tay | bne _ | nop =>
    exact ⟨_, reaches_onePulse h hpulse (by simp [tagOf]) rfl 0, lastAction_effectDone h (by simp [tagOf])
      (by simp [tagOf]) (by simp [tagOf]) (by simp [tagOf]) (by simp [readAddress])⟩

/-- The one tick of SYS with an invalid X, which is abandoned (R102). -/
theorem reaches_invalidSys {start : Option Word} (h : s.Executing (.sys start)) (hpulse : s.pulse = 0)
    (hx : s.x ∉ [0x01#8, 0x02#8, 0x03#8]) (v : Volatile) :
    Reaches 1 (s.afterTick v) (s.raise .invalidSyscall s.x.toNat) := by
  refine reaches_one h.active ⟨v.tickStart, ?_⟩
  rw [h.nextPulse.runPhase_eq, exec_sys_invalid (by simp [hpulse]) (by simpa using hx)]
  rfl

/-- The report that an invalid SYS leaves is the one of the summary (R102, R105). -/
theorem invalidSys_arch {start : Option Word} (h : s.Executing (.sys start)) (hopcode : s.opcode = 0xFF#8)
    (hx : s.x ≠ 0x01#8) :
    (s.raise .invalidSyscall s.x.toNat).arch = effect s.useCarry (.sys start) s.arch := by
  simp [State.arch, effect, State.report, hopcode, h.phase, hx]

/-! ## Whole instructions -/

/-- What the front end leaves is, for the summary, the state at the boundary with PC past the instruction. -/
theorem State.Latched.effect_eq {e : State} (h : State.Latched i s e) :
    effect e.useCarry i e.arch =
      effect s.useCarry i { s.arch with pc := s.pc + BitVec.ofNat 16 (encode i).length } := by
  have hcarry : e.useCarry = s.useCarry := (congrArg State.useCarry h.frame).trans rfl
  rw [h.arch, hcarry]

theorem State.Latched.x_eq {e : State} (h : State.Latched i s e) : e.x = s.x :=
  (congrArg State.x h.frame).trans rfl

/-- From an instruction boundary an instruction that ends in an InterruptCheck comes to it in all its ticks but one, its
effect done. -/
theorem run_to_interruptCheck {rest : List Byte} (h : s.boundary) (hdecode : decode s.x s.codeBytes = .ok (i, rest))
    (hends : endsInInterruptCheck i s.x) :
    ∃ t, run (ticksOf i s.x - 1) s = .next t ∧ t.active ∧ t.phase = .interruptCheck ∧ t.writePending = false ∧
      t.arch = effect s.useCarry i { s.arch with pc := s.pc + BitVec.ofNat 16 (encode i).length } := by
  obtain ⟨e, hfront, hlatched, hexec, hpulse⟩ := reaches_executing h hdecode
  obtain ⟨t, hreach, hactive, hp, harch⟩ := reaches_interruptCheck hexec hpulse (hlatched.x_eq ▸ hends)
  obtain ⟨v, hrun⟩ := hfront.trans hreach
  rw [ticksOf_eq (decode_three hdecode).1 hends, Nat.add_sub_cancel]
  exact ⟨t.afterTick v, hrun, hactive, hp, rfl, harch.trans hlatched.effect_eq⟩

/-- With its InterruptCheck tick such an instruction comes to the start of a Fetch, its effect done. -/
theorem run_instruction {rest : List Byte} (h : s.boundary) (hdecode : decode s.x s.codeBytes = .ok (i, rest))
    (hends : endsInInterruptCheck i s.x) :
    ∃ t, run (ticksOf i s.x) s = .next t ∧
      t.arch = effect s.useCarry i { s.arch with pc := s.pc + BitVec.ofNat 16 (encode i).length } ∧
      t.pulse = 0 ∧ t.stage = .fetch := by
  obtain ⟨u, hrun, hactive, hp, hwrite, harch⟩ := run_to_interruptCheck h hdecode hends
  have hticks : ticksOf i s.x - 1 + 1 = ticksOf i s.x := by
    rw [ticksOf_eq (decode_three hdecode).1 hends, Nat.add_sub_cancel]
  refine ⟨_, ?_, (State.interruptCheck_arch hwrite).trans harch, by simp, by simp⟩
  rw [← hticks, run_add, hrun, andThen_next, run, step_interruptCheck hactive hp]
  rfl

/-- From an instruction boundary at BRK four ticks stop the machine (R96). -/
theorem run_brk {rest : List Byte} (h : s.boundary) (hdecode : decode s.x s.codeBytes = .ok (.brk, rest)) :
    ∃ t, run 4 s = .next t ∧ t.arch = { s.arch with pc := s.pc + 1 } ∧ t.pulse = 0 ∧ t.stage = .interruptCheck ∧
      t.running = false := by
  obtain ⟨e, hfront, hlatched, hexec, hpulse⟩ := reaches_executing h hdecode
  obtain ⟨v, hrun⟩ := hfront.trans (reaches_onePulse hexec hpulse (by simp [tagOf]) rfl 0)
  have hdone : e.stop.done = _ := State.done_of_none hexec.writeAddress
  exact ⟨_, hrun, hlatched.arch, rfl, congrArg State.stage hdone, rfl⟩

/-- From an instruction boundary at an invalid SYS four ticks log the fault (R102). -/
theorem run_invalidSys {start : Option Word} {rest : List Byte} (h : s.boundary)
    (hdecode : decode s.x s.codeBytes = .ok (.sys start, rest)) (hx : s.x ∉ [0x01#8, 0x02#8, 0x03#8]) :
    ∃ t, run 4 s = .next t ∧
      t.arch = effect s.useCarry (.sys start)
        { s.arch with pc := s.pc + BitVec.ofNat 16 (encode (.sys start)).length } ∧
      t.pulse = 0 ∧ t.stage = .fetch := by
  obtain ⟨e, hfront, hlatched, hexec, hpulse⟩ := reaches_executing h hdecode
  have hx' : e.x ∉ [0x01#8, 0x02#8, 0x03#8] := hlatched.x_eq ▸ hx
  obtain ⟨v, hrun⟩ := hfront.trans (reaches_invalidSys hexec hpulse hx')
  obtain rfl : start = none := by
    have hwf := (decode_three hdecode).1
    cases start with
    | none => rfl
    | some _ => simp_all [Instr.wellFormed]
  refine ⟨_, hrun, ?_, rfl, rfl⟩
  rw [← hlatched.effect_eq, ← invalidSys_arch hexec hlatched.opcode (by simp at hx'; exact hx'.1)]
  rfl

end

/-- Settles O51: an instruction goes through its InterruptCheck, or is BRK, or an invalid SYS. -/
theorem pipelineRefinesInstructionSummary : Obligations.PipelineRefinesInstructionSummary := by
  intro s i rest _ h hdecode hprint
  by_cases hbrk : i = .brk
  · subst hbrk
    obtain ⟨t, hrun, harch, hpulse, hstage, hstopped⟩ := run_brk h hdecode
    exact ⟨t, hrun, harch, hpulse, hstage, fun _ => hstopped⟩
  rw [if_neg hbrk]
  by_cases hsys : tagOf i = .sys → s.x = 0x01#8
  · obtain ⟨t, hrun, harch, hpulse, hstage⟩ := run_instruction h hdecode ⟨hbrk, hsys⟩
    exact ⟨t, hrun, harch, hpulse, hstage, fun hi => absurd hi hbrk⟩
  · obtain ⟨htag, hx1⟩ := Classical.not_imp.1 hsys
    obtain ⟨start, rfl⟩ : ∃ start, i = .sys start := by
      cases i <;> cases htag
      exact ⟨_, rfl⟩
    have hx : s.x ∉ [0x01#8, 0x02#8, 0x03#8] := by simpa [hx1, isStringPrint] using hprint
    obtain ⟨t, hrun, harch, hpulse, hstage⟩ := run_invalidSys h hdecode hx
    exact ⟨t, by rwa [ticksOf, if_neg hx1], harch, hpulse, hstage, fun hi => absurd hi hbrk⟩

end Sys2Proof.Machine
end

section
/-! PROOFS. The loads, the register transfers, and a store followed by a load (41_load_store_transfer.md R79 to R89). -/

namespace Sys2Proof.Machine

section
variable {s : State} {i : Instr}

/-- The one sub-pulse of a micro-op of one sub-pulse, which takes no byte from MDR (R74). -/
theorem exec_onePulse (hpulse : s.pulse = 1) (hsys : tagOf i ≠ .sys) (hlast : lastPulse i = 1) :
    exec i s = .next (lastAction i s.mdr s).done := by
  cases i with
  | sys _ => exact absurd rfl hsys
  | ldaImm _ | ldxImm _ | ldyImm _ | txa | tya | tax | tay | bne _ | nop | brk => exact if_pos hpulse
  | _ => cases hlast

/-! ## From one instruction boundary to the next -/

/-- What every step keeps, every run keeps. -/
theorem run_keeps {P : State → Prop} (hstep : ∀ s t, P s → step s = .next t → P t) {n : Nat} {t : State} (hs : P s)
    (h : run n s = .next t) : P t := by
  induction n generalizing s with
  | zero => cases h; exact hs
  | succ n ih =>
    obtain ⟨u, hu, hrun⟩ := andThen_eq_next.1 h
    exact ih (hstep s u hs hu) hrun

/-- No step begins a load: only Start does (R46, R127). -/
theorem step_notLoading (s t : State) (hload : s.isLoading = false) (h : step s = .next t) : t.isLoading = false := by
  obtain ⟨-, rfl⟩ | ⟨-, hl, -⟩ | ⟨-, u, hu, rfl⟩ := step_phases h
  · exact hload
  · simp [hload] at hl
  · obtain ⟨-, hkept, -⟩ := hu.frame
    rw [State.laterPhases_isLoading]
    exact (State.memoryTick_of_notLoading (hkept.trans hload)).2.1

/-- Under the invariant the start of a Fetch of a machine that runs and does not load is an instruction boundary
(R78). -/
theorem State.Inv.boundary (h : s.Inv) (hactive : s.active) (hstage : s.stage = .fetch) (hpulse : s.pulse = 0) :
    s.boundary := by
  have hf : s.fetchCount = 0 := by
    by_contra hpos
    exact absurd (hstage.symm.trans (h.stalling (by omega)).2) (by decide)
  have hp : s.phase = Stage.fetch.phase := by rw [State.phase_of_fetchCount hf, hstage]
  obtain ⟨-, -, hc, ha, hv⟩ := h.countersInv.quiet hp (by decide)
  exact ⟨hactive.1, hactive.2, hstage, hpulse, hf, hc, ha, hv, h.readPending, h.writePending.trans hactive.2⟩

/-- An instruction that ends in an InterruptCheck comes from an instruction boundary to the next one, its effect done,
where the interrupt service does not stop the machine. -/
theorem run_to_boundary {rest : List Byte} (hinv : s.Inv) (h : s.boundary)
    (hdecode : decode s.x s.codeBytes = .ok (i, rest)) (hends : endsInInterruptCheck i s.x)
    (hrunning : ∀ t, run (ticksOf i s.x) s = .next t → t.running = true) :
    ∃ t, run (ticksOf i s.x) s = .next t ∧ t.boundary ∧
      t.arch = effect s.useCarry i { s.arch with pc := s.pc + BitVec.ofNat 16 (encode i).length } := by
  obtain ⟨t, hrun, harch, hpulse, hstage⟩ := run_instruction h hdecode hends
  have hinv' : t.Inv := run_keeps stepKeepsInvariant hinv hrun
  have hload : t.isLoading = false := run_keeps step_notLoading h.notLoading hrun
  exact ⟨t, hrun, hinv'.boundary ⟨hrunning t hrun, hload⟩ hstage hpulse, harch⟩

/-- Bytes that are the encoding of a well-formed instruction decode to it, with no byte left over (R55, R60). -/
theorem decode_of_eq_encode {x : Byte} {bytes : List Byte} (hbytes : bytes = encode i) (hwf : i.wellFormed x = true) :
    decode x bytes = .ok (i, []) := by
  rw [hbytes, ← List.append_nil (encode i)]
  exact decodeEncodeRoundTrip x i [] hwf

/-! ## The store and the load as whole instructions -/

/-- From an instruction boundary at `STA a` ten ticks come to the boundary after it, with A in the cell at `a` (R85,
R137). -/
theorem run_staAbs {a : Word} (hinv : s.Inv) (h : s.boundary) (hcode : s.codeBytes = encode (.staAbs a))
    (hrunning : ∀ t, run 10 s = .next t → t.running = true) :
    ∃ t, run 10 s = .next t ∧ t.boundary ∧ t.arch = { (s.setCell a s.a).arch with pc := s.pc + 3 } :=
  run_to_boundary hinv h (decode_of_eq_encode hcode rfl) ⟨by simp, by simp [tagOf]⟩ hrunning

/-- From an instruction boundary at `LDA a` ten ticks take the cell at `a` into A (R80, R137). -/
theorem run_ldaAbs {a : Word} (h : s.boundary) (hcode : s.codeBytes = encode (.ldaAbs a)) :
    ∃ t, run 10 s = .next t ∧ t.arch = { s.arch with a := s.cell a, pc := s.pc + 3 } := by
  obtain ⟨t, hrun, harch, -⟩ := run_instruction h (decode_of_eq_encode hcode rfl) ⟨by simp, by simp [tagOf]⟩
  exact ⟨t, hrun, harch⟩

end

/-! ## The obligations -/

/-- Settles O12: the micro-op of each load is a `readThen`. -/
theorem loadAbsoluteResult : Obligations.LoadAbsoluteResult := fun _ =>
  ⟨⟨rfl, readsOperand_of_readThen fun _ => rfl⟩, ⟨rfl, readsOperand_of_readThen fun _ => rfl⟩,
    rfl, readsOperand_of_readThen fun _ => rfl⟩

/-- Settles O53: the store changes no byte of the load, so the load follows it and reads the byte stored. -/
theorem storeThenLoadReturnsValue : Obligations.StoreThenLoadReturnsValue := by
  intro s a hinv h hsta hlda ha3 ha4 ha5 hrunning
  obtain ⟨t, hrun, hboundary, harch⟩ := run_staAbs hinv h hsta hrunning
  have hpc : t.pc = s.pc + 3 := congrArg Arch.pc harch
  have hcell (b : Word) : t.cell b = if a = b then s.a else s.cell b := by
    have hcells : t.cells = (s.setCell a s.a).cells := congrArg Arch.cells harch
    rw [← State.cell_setCell hinv.cells, State.cell, hcells, State.cell]
  have hstored : t.cell a = s.a := by rw [hcell, if_pos rfl]
  have hcode : t.codeBytes = encode (.ldaAbs a) :=
    calc t.codeBytes = [t.cell (s.pc + 3), t.cell (s.pc + 4), t.cell (s.pc + 5)] := by
          simp [State.codeBytes, hpc, BitVec.add_assoc]
      _ = [s.cell (s.pc + 3), s.cell (s.pc + 4), s.cell (s.pc + 5)] := by
          rw [hcell, hcell, hcell, if_neg ha3, if_neg ha4, if_neg ha5]
      _ = encode (.ldaAbs a) := hlda
  obtain ⟨u, hrun', harch'⟩ := run_ldaAbs hboundary hcode
  refine ⟨u, ?_, ?_, ?_, ?_, ?_, ?_⟩
  · rw [run_add 10 10, hrun, andThen_next, hrun']
  · exact (congrArg Arch.a harch').trans hstored
  · have hcells : u.cells = t.cells := congrArg Arch.cells harch'
    rw [State.cell, hcells]
    exact hstored
  · rw [show u.pc = t.pc + 3 from congrArg Arch.pc harch', hpc, BitVec.add_assoc]
    rfl
  · exact (congrArg Arch.z harch').trans (congrArg Arch.z harch)
  · exact (congrArg Arch.c harch').trans (congrArg Arch.c harch)

/-- Settles O11: the micro-op of each load has one sub-pulse. -/
theorem loadImmediateResult : Obligations.LoadImmediateResult := fun _ _ hpulse =>
  ⟨⟨rfl, exec_onePulse hpulse nofun rfl⟩, ⟨rfl, exec_onePulse hpulse nofun rfl⟩, rfl, exec_onePulse hpulse nofun rfl⟩

/-- Settles O14: the micro-op of each transfer has one sub-pulse. -/
theorem transferResult : Obligations.TransferResult := fun _ hpulse =>
  ⟨⟨rfl, exec_onePulse hpulse nofun rfl⟩, ⟨rfl, exec_onePulse hpulse nofun rfl⟩, ⟨rfl, exec_onePulse hpulse nofun rfl⟩,
    rfl, exec_onePulse hpulse nofun rfl⟩

end Sys2Proof.Machine
end

section
/-! PROOFS. Addition and comparison (42_arith_compare.md R90, R91). -/

namespace Sys2Proof.Machine

/-- The sum of ADC, with the condition on the carry written as R90 writes it. -/
theorem adcSum_eq (useCarry c : Bool) (a m : Byte) :
    adcSum useCarry c a m = a.toNat + m.toNat + (if useCarry = true ∧ c = true then 1 else 0) := by
  simp only [adcSum, carryIn, Bool.and_eq_true]

/-- A byte holds the sum of ADC modulo 256 (R4, R90). -/
theorem adcResult_eq (useCarry c : Bool) (a m : Byte) :
    adcResult useCarry c a m = BitVec.ofNat 8 (adcSum useCarry c a m % 256) :=
  BitVec.eq_of_toNat_eq (Nat.mod_mod ..).symm

/-- ADC's micro-op, with the carry and the result written as R90 writes them. -/
theorem exec_adcAbs (ea : Word) (s : State) :
    exec (.adcAbs ea) s = readThen s ea (fun m s =>
      { s with
        c := decide (0xFF < s.a.toNat + m.toNat + (if s.useCarry = true ∧ s.c = true then 1 else 0))
        a := BitVec.ofNat 8
          ((s.a.toNat + m.toNat + (if s.useCarry = true ∧ s.c = true then 1 else 0)) % 256) }) := by
  simp only [← adcSum_eq, ← adcResult_eq]
  rfl

/-! ## The obligations -/

/-- Settles O15: ADC is a `readThen` that writes A and C. -/
theorem adcAbsoluteResult : Obligations.AdcAbsoluteResult := fun ea =>
  ⟨rfl, readsOperand_of_readThen (exec_adcAbs ea)⟩

/-- Settles O16: CPX is a `readThen` that writes Z and C, from the difference and the comparison of R91. -/
theorem cpxAbsoluteResult : Obligations.CpxAbsoluteResult := fun _ =>
  ⟨rfl, readsOperand_of_readThen fun _ => rfl⟩

end Sys2Proof.Machine
end

section
/-! PROOFS. No-op, the system call and the end of a run (43_control_system.md R95 to R102, 60_exceptions.md R104 to
R108). -/

namespace Sys2Proof.Machine

section
variable {s : State}

/-! ## The digits that SYS prints (R98) -/

/-- The decimal digits of a number below 1000, most significant first. -/
def decimalDigits (n : Nat) : List Nat :=
  if n < 10 then [n] else if n < 100 then [n / 10, n % 10] else [n / 100, n / 10 % 10, n % 10]

theorem decimal_eq_map (b : Byte) : decimal b = (decimalDigits b.toNat).map digitByte := by
  simp only [decimalDigits, apply_ite (List.map digitByte)]
  rfl

theorem decimalDigits_ne_nil (n : Nat) : decimalDigits n ≠ [] := by
  unfold decimalDigits
  split
  · exact List.cons_ne_nil _ _
  · split <;> exact List.cons_ne_nil _ _

theorem decimalDigits_lt {n : Nat} (h : n < 1000) : ∀ d ∈ decimalDigits n, d < 10 := by
  unfold decimalDigits
  split
  · simpa
  · split <;> simp <;> omega

theorem foldl_decimalDigits (n : Nat) : (decimalDigits n).foldl (fun m d => 10 * m + d) 0 = n := by
  unfold decimalDigits
  split
  · simp
  · split <;> simp <;> omega

theorem decimalDigits_of_head_zero {n : Nat} (h : (decimalDigits n).head? = some 0) : decimalDigits n = [0] := by
  unfold decimalDigits at h ⊢
  split at h
  · simp_all
  · split at h <;> simp at h <;> omega

/-! ## The string pointer (R99) -/

/-- An address other than the top one has its successor without a carry out of 16 bits. -/
theorem ne_top_iff_toNat_lt {p : Word} : p ≠ 0xFFFF#16 ↔ p.toNat < 65535 := by
  bv_omega

/-- The successor of an address is the sum narrowed to 16 bits (R4). -/
theorem add_one_eq_ofNat (p : Word) : p + 1 = BitVec.ofNat 16 (p.toNat + 1) := by
  bv_omega

/-! ## The sub-pulses of a string print (R99 to R101) -/

/-- X selects a string print, which starts at Y or at the operand (R97, R100, R101). -/
theorem exec_sys_string (hx : s.x = 0x02#8 ∨ s.x = 0x03#8) (arg : Option Word) :
    exec (.sys arg) s = sysString Config.sys2PageCross Config.strWrap (s.stringStart arg) s := by
  obtain hx | hx := hx <;> simp [exec, execSys, State.stringStart, hx]

theorem exec_sys_stringFirst (hx : s.x = 0x02#8 ∨ s.x = 0x03#8) (hpulse : s.pulse = 1) (arg : Option Word) :
    exec (.sys arg) s = .next ({ s with strPtr := s.stringStart arg }.triggerRead (s.stringStart arg)) := by
  rw [exec_sys_string hx, sysString, if_neg (by omega), if_pos hpulse]

theorem exec_sys_stringRead (hx : s.x = 0x02#8 ∨ s.x = 0x03#8) (hpulse : s.pulse ≠ 1) (hodd : s.pulse % 2 = 1)
    (arg : Option Word) : exec (.sys arg) s = .next (s.triggerRead s.strPtr) := by
  rw [exec_sys_string hx, sysString, if_neg (by omega), if_neg hpulse, if_pos hodd]

theorem exec_sys_stringByte (hx : s.x = 0x02#8 ∨ s.x = 0x03#8) (hpos : 0 < s.pulse) (heven : s.pulse % 2 = 0)
    (hread : s.readCompleted = true) (arg : Option Word) :
    exec (.sys arg) s = .next (strByte Config.sys2PageCross Config.strWrap s.mdr s) := by
  rw [exec_sys_string hx, sysString, if_neg (by omega), if_neg (by omega), if_neg (by omega), withMdr, if_pos hread]

section
variable {cross : PageCross} {atTop : StrWrap} {b : Byte}

theorem strByte_zero : strByte cross atTop 0x00#8 s = s.done := if_pos rfl

theorem strByte_of_next {p : Word} (hb : b ≠ 0x00#8) (hnext : nextStrPtr cross atTop s.x s.strPtr = some p) :
    strByte cross atTop b s = { s.emit [b] with strPtr := p } := by
  simp [strByte, hb, hnext]

theorem strByte_of_no_next (hb : b ≠ 0x00#8) (hnext : nextStrPtr cross atTop s.x s.strPtr = none) :
    strByte cross atTop b s = (s.emit [b]).raise .memoryOutOfRange 0x10000 := by
  simp [strByte, hb, hnext]

end

/-- The fault action in Execute, written out (R105). -/
theorem State.raise_of_execute (hp : s.phase = .execute) (k : FaultKind) (info : Nat) :
    s.raise k info =
      { s with
        faults := s.faults ++ [{ kind := k, info := info, pc := s.pc, opcode := s.opcode, stage := .execute }]
        stage := .fetch, pulse := 0, fetchCount := 0, currentFetch := 0
        writeAddress := none, writeValue := none } := by
  rw [State.raise, State.report, hp]

end

/-! ## The results -/

/-- Settles O21: the digits are those of `decimalDigits`. -/
theorem sysPrintsDecimal : Obligations.SysPrintsDecimal := by
  intro start s hpulse hx
  have hsmall : s.y.toNat < 1000 := by omega
  refine ⟨decimalDigits s.y.toNat, ?_, decimalDigits_ne_nil _, decimalDigits_lt hsmall, foldl_decimalDigits _,
    decimalDigits_of_head_zero⟩
  rw [exec_sys_printInt hpulse hx, decimal_eq_map]
  rfl

/-- Settles O23: each clause is one sub-pulse of the print. -/
theorem sysStringSubPulses : Obligations.SysStringSubPulses := by
  intro arg s hform
  have hx : s.x = 0x02#8 ∨ s.x = 0x03#8 := hform.imp_right And.left
  refine ⟨fun hpulse hx2 => ?_, fun ea hpulse hx3 harg => ?_, fun hpulse hodd => exec_sys_stringRead hx hpulse hodd arg,
    fun hpos heven hread hmdr => ?_, fun hpos heven hread hmdr => ⟨fun p hnext => ?_, fun hnext hp => ?_⟩⟩
  · have hstart : s.stringStart arg = s.y.setWidth 16 := if_pos hx2
    rw [exec_sys_stringFirst hx hpulse, hstart]
  · have hstart : s.stringStart arg = ea := by simp [State.stringStart, hx3, harg]
    rw [exec_sys_stringFirst hx hpulse, hstart]
  · rw [exec_sys_stringByte hx hpos heven hread, hmdr, strByte_zero]
  · rw [exec_sys_stringByte hx hpos heven hread, strByte_of_next hmdr hnext]
    rfl
  · have hp' : (s.emit [s.mdr]).phase = .execute := hp
    rw [exec_sys_stringByte hx hpos heven hread, strByte_of_no_next hmdr hnext, State.raise_of_execute hp']
    rfl

/-- Settles O24: the two clauses below the page wrap are the top address and every other one. -/
theorem stringPointerSuccessor : Obligations.StringPointerSuccessor := by
  intro cross atTop x p
  unfold nextStrPtr
  refine if_congr Iff.rfl rfl ?_
  by_cases htop : p = 0xFFFF#16
  · rw [if_pos htop, if_neg (mt ne_top_iff_toNat_lt.2 (not_not.2 htop))]
    cases atTop <;> rfl
  · rw [if_neg htop, if_pos (ne_top_iff_toNat_lt.1 htop), add_one_eq_ofNat]

/-- Settles O19: NOP has one sub-pulse, which does nothing. -/
theorem nopResult : Obligations.NopResult :=
  fun _ hpulse => ⟨rfl, exec_onePulse hpulse nofun rfl⟩

/-- Settles O22: the sub-pulse is the fault action, taken in Execute. -/
theorem sysInvalidIsLogged : Obligations.SysInvalidIsLogged := by
  intro start s hpulse hx hp
  rw [exec_sys_invalid hpulse hx, State.raise_of_execute hp]

/-! ## Where faults come from (R104) -/

/-- `r` is a report that a sub-pulse of `s` may log: of an undefined opcode in Decode, or in Execute of an invalid SYS or
of a string pointer without a successor (R104, R106 to R108). -/
def State.MayLog (s : State) (r : FaultReport) : Prop :=
  (r.kind = .unknownOpcode ∧ s.phase = .decode ∧ lookupRow s.opcode = none) ∨
    (r.kind = .invalidSyscall ∧ s.phase = .execute ∧ s.ir = .sys ∧ s.x ∉ [0x01#8, 0x02#8, 0x03#8]) ∨
    (r.kind = .memoryOutOfRange ∧ s.phase = .execute ∧ s.ir = .sys ∧ (s.x = 0x02#8 ∨ s.x = 0x03#8) ∧
      nextStrPtr Config.sys2PageCross Config.strWrap s.x s.strPtr = none)

/-- The Clock, the arrivals and the count of the sub-pulse change nothing that a fault depends on. -/
theorem State.mayLog_counted {s : State} {r : FaultReport} : s.tickStart.nextPulse.MayLog r ↔ s.MayLog r :=
  Iff.rfl

/-- An Execute sub-pulse logs nothing, or one report of SYS. -/
theorem ExecStep.faults_cases {s t : State} {i : Instr} (h : ExecStep s i t) (hp : s.phase = .execute)
    (hir : s.ir = tagOf i) : t.faults = s.faults ∨ ∃ r, t.faults = s.faults ++ [r] ∧ s.MayLog r := by
  cases h with
  | invalid hx => exact .inr ⟨_, rfl, .inr (.inl ⟨rfl, hp, hir, hx⟩)⟩
  | stringOverrun hx _ _ hnext => exact .inr ⟨_, rfl, .inr (.inr ⟨rfl, hp, hir, hx, hnext⟩)⟩
  | finish hsys hlast => exact .inl ((ExecStep.finish hsys hlast).output_eq hsys).2.2
  | read | store | printInt | stringFirst | stringRead | stringEnd | stringByte => exact .inl rfl

/-- A sub-pulse logs nothing, or one report of a kind and at a point that R104 names. -/
theorem PhaseStep.faults_cases {s t : State} (h : PhaseStep s t) :
    t.faults = s.faults ∨ ∃ r, t.faults = s.faults ++ [r] ∧ s.MayLog r := by
  cases h with
  | undefinedOpcode hp hrow => exact .inr ⟨_, rfl, .inl ⟨rfl, hp, hrow⟩⟩
  | execute hp hi hstep => exact hstep.faults_cases hp (tagOf_of_instrOfTag hi).symm
  | interruptCheck => exact .inl s.service_faults
  | fetchRead | fetchCapture | operandRead | operandCapture | idle | decode | writeback | noWriteback => exact .inl rfl

/-- Settles O35: only a sub-pulse logs, and the later phases of its tick keep the log. -/
theorem faultSources : Obligations.FaultSources := by
  intro s t h
  obtain ⟨-, rfl⟩ | ⟨-, -, rfl⟩ | ⟨-, u, hu, rfl⟩ := step_phases h
  · exact .inl rfl
  · exact .inl (by simp)
  · rw [State.laterPhases_faults]
    exact hu.faults_cases.imp_right fun ⟨r, hlog, hr⟩ => ⟨r, hlog, State.mayLog_counted.1 hr⟩

/-! ## The end of a run (R126, R133) -/

/-- The host's snapshot of a stopped core is its architectural part (R133). -/
theorem State.snapshot_of_stopped {s : State} (h : s.running = false) :
    s.snapshot = some
      { a := s.arch.a, x := s.arch.x, y := s.arch.y, z := s.arch.z, c := s.arch.c, pc := s.arch.pc,
        out := s.arch.out, faults := s.arch.faults, cells := s.arch.cells } :=
  if_neg (by simp [h])

/-- A stopped core stays as it is (R134). -/
theorem run_stopped {s : State} (h : s.running = false) (n : Nat) : run n s = .next s := by
  induction n with
  | zero => rfl
  | succ n ih => rw [run, step_stopped h, andThen_next, ih]

/-- A zero byte at PC is a BRK (R61). -/
theorem decode_brk {s : State} (h : s.cell s.pc = 0x00#8) :
    decode s.x s.codeBytes = .ok (.brk, [s.cell (s.pc + 1), s.cell (s.pc + 2)]) := by
  rw [State.codeBytes, h]
  rfl

/-- Settles O45: the BRK stops the core, which is final then and shows its architectural part. -/
theorem brkEndsTheRun : Obligations.BrkEndsTheRun := by
  intro s _ h hcell
  obtain ⟨t, hrun, harch, hpulse, hstage, hstopped⟩ := run_brk h (decode_brk hcell)
  refine ⟨t, hrun, hstopped, hstage, hpulse, harch, ?_, run_stopped hstopped⟩
  rw [State.snapshot_of_stopped hstopped, harch]
  rfl

end Sys2Proof.Machine
end

section
/-! PROOFS. A string print as a whole instruction (43_control_system.md R99 to R101): each pair of sub-pulses takes one
byte, so an induction over the string follows the print. -/

namespace Sys2Proof.Machine

section
variable {s : State} {arg : Option Word}

/-! ## Two ticks of a string print -/

/-- The byte of a string print computes with nothing that every tick may change. -/
theorem strByte_afterTick (cross : PageCross) (atTop : StrWrap) (b : Byte) (s : State) (v : Volatile) :
    strByte cross atTop b (s.afterTick v) = (strByte cross atTop b s).afterTick v := by
  by_cases hb : b = 0x00#8
  · subst hb
    rfl
  cases hnext : nextStrPtr cross atTop s.x s.strPtr with
  | some p => rw [strByte_of_next hb hnext, strByte_of_next (s := s.afterTick v) hb hnext]; rfl
  | none => rw [strByte_of_no_next hb hnext, strByte_of_no_next (s := s.afterTick v) hb hnext]; rfl

/-- A tick whose CPU phase triggers a read leaves the byte in MDR (R39, R40). -/
theorem run_triggerRead {u : State} {v w : Volatile} {p : Word} (hactive : s.active)
    (h : runPhase (s.nextPulse.afterTick v.tickStart) = .next ((u.afterTick w).triggerRead p)) :
    ∃ w', run 1 (s.afterTick v) = .next (u.afterTick w') ∧ w'.mdr = u.cell p ∧ w'.readCompleted = true := by
  have hmemory := State.memoryTick_triggerRead (s := u.afterTick w) rfl p
  refine ⟨((u.afterTick w).triggerRead p).laterPhases.volatile, ?_, congrArg State.mdr hmemory,
    congrArg State.readCompleted hmemory⟩
  rw [run_one hactive h, State.laterPhases_of_noWrite rfl]
  rfl

/-- The address that a string print reads next: its start, then where `str_ptr` points (R99 to R101). -/
def State.stringNext (s : State) (arg : Option Word) : Word :=
  if s.pulse = 0 then s.stringStart arg else s.strPtr

/-- An odd sub-pulse of a string print sets `str_ptr` to the address it reads, the first one anew (R99 to R101). -/
theorem exec_sys_stringOdd (hx : s.x = 0x02#8 ∨ s.x = 0x03#8) (heven : s.pulse % 2 = 0) :
    exec (.sys arg) s.nextPulse =
      .next ({ s.nextPulse with strPtr := s.stringNext arg }.triggerRead (s.stringNext arg)) := by
  unfold State.stringNext
  split
  next hpulse => exact exec_sys_stringFirst (s := s.nextPulse) hx (State.nextPulse_of_zero hpulse) arg
  next hpulse =>
    exact exec_sys_stringRead (s := s.nextPulse) hx (by rw [State.nextPulse_pulse]; omega)
      (by rw [State.nextPulse_pulse]; omega) arg

/-- A string print with `str_ptr` at `p` and the byte there read: its coming sub-pulse is an even one. -/
def State.stringAtByte (s : State) (p : Word) : State := { s.nextPulse with strPtr := p }

theorem State.Executing.stringAtByte {i : Instr} (h : s.Executing i) (p : Word) : (s.stringAtByte p).Executing i :=
  { h with toQuiet := ⟨h.fetchCount, h.currentFetch, h.writeAddress, h.writeValue⟩ }

/-- Two ticks of a string print read a byte and take it (R99). -/
theorem reaches_stringByte (h : s.Executing (.sys arg)) (hx : s.x = 0x02#8 ∨ s.x = 0x03#8) (heven : s.pulse % 2 = 0)
    (v : Volatile) :
    Reaches 2 (s.afterTick v) (strByte Config.sys2PageCross Config.strWrap (s.cell (s.stringNext arg))
      (s.stringAtByte (s.stringNext arg)).nextPulse) := by
  have hread : runPhase (s.nextPulse.afterTick v.tickStart) =
      .next (((s.stringAtByte (s.stringNext arg)).afterTick v.tickStart).triggerRead (s.stringNext arg)) := by
    rw [h.nextPulse.runPhase_eq]
    exact exec_sys_stringOdd (s := s.afterTick v.tickStart) hx heven
  obtain ⟨w, hrun, hmdr, hcompleted⟩ := run_triggerRead h.active hread
  have hbyte := h.stringAtByte (s.stringNext arg)
  obtain ⟨w', hrun'⟩ : Reaches 1 ((s.stringAtByte (s.stringNext arg)).afterTick w) _ :=
    reaches_one hbyte.active ⟨w.tickStart, by
      rw [hbyte.nextPulse.runPhase_eq,
        exec_sys_stringByte (s := (s.stringAtByte (s.stringNext arg)).nextPulse.afterTick w.tickStart) hx
          (Nat.succ_pos _) (by simp [State.stringAtByte]; omega) hcompleted,
        State.afterTick_mdr, strByte_afterTick]⟩
  have hmdr' : w.tickStart.mdr = s.cell (s.stringNext arg) := hmdr
  rw [hmdr'] at hrun'
  exact ⟨w', by rw [run_add 1 1, hrun, andThen_next, hrun']⟩

/-! ## The whole print -/

/-- A string print between two bytes, with `b` emitted and `str_ptr` moved on to `q`. -/
def State.stringGoOn (s : State) (b : Byte) (q : Word) : State :=
  { s.nextPulse.nextPulse.emit [b] with strPtr := q }

theorem State.Executing.stringGoOn {i : Instr} (h : s.Executing i) (b : Byte) (q : Word) :
    (s.stringGoOn b q).Executing i :=
  { h with toQuiet := ⟨h.fetchCount, h.currentFetch, h.writeAddress, h.writeValue⟩ }

/-- A string print comes to its InterruptCheck with exactly the bytes of its string emitted (R99 to R101). -/
theorem reaches_string {bs : List Byte} (h : s.Executing (.sys arg)) (hx : s.x = 0x02#8 ∨ s.x = 0x03#8)
    (heven : s.pulse % 2 = 0) (hstring : stringAt s.cells s.x (s.stringNext arg) bs) :
    ∃ t, (∀ v, Reaches (2 * bs.length + 2) (s.afterTick v) t) ∧ t.active ∧ t.phase = .interruptCheck ∧
      t.arch = { s.arch with out := s.out ++ bs } := by
  induction bs generalizing s with
  | nil =>
    have hlast := reaches_stringByte h hx heven
    have hzero : s.cell (s.stringNext arg) = 0x00#8 := hstring
    rw [hzero, strByte_zero] at hlast
    have hbyte := h.stringAtByte (s.stringNext arg)
    exact ⟨_, hlast, hbyte.active, hbyte.nextPulse.done_phase, by rw [List.append_nil]; rfl⟩
  | cons b bs ih =>
    have hfirst := reaches_stringByte h hx heven
    obtain ⟨hcell, hb, q, hnext, hrest⟩ := hstring
    have hcell : s.cell (s.stringNext arg) = b := hcell
    rw [hcell, strByte_of_next hb hnext] at hfirst
    obtain ⟨t, hreach, hactive, hp, harch⟩ :=
      ih (s := s.stringGoOn b q) (h.stringGoOn b q) hx ((Nat.add_mod_right _ 2).trans heven) hrest
    refine ⟨t, fun v => ?_, hactive, hp, ?_⟩
    · have hticks : 2 * (b :: bs).length + 2 = 2 + (2 * bs.length + 2) := by rw [List.length_cons]; omega
      rw [hticks]
      exact (hfirst v).trans hreach
    · rw [harch, ← List.singleton_append, ← List.append_assoc]
      rfl

/-- Of the string prints X = 3 alone has an operand (R60). -/
theorem stringPrint_cases {x : Byte} (hwf : (Instr.sys arg).wellFormed x = true) (hx : x = 0x02#8 ∨ x = 0x03#8) :
    (x = 0x02#8 ∧ arg = none) ∨ (x = 0x03#8 ∧ ∃ ea, arg = some ea) := by
  obtain rfl | rfl := hx
  · exact .inl ⟨rfl, by simpa [Instr.wellFormed] using hwf⟩
  · exact .inr ⟨rfl, Option.isSome_iff_exists.1 (by simpa [Instr.wellFormed] using hwf)⟩

/-- A well-formed string print starts at its operand, or where it has none at Y (R100, R101). -/
theorem State.stringStart_of_wellFormed (hwf : (Instr.sys arg).wellFormed s.x = true)
    (hx : s.x = 0x02#8 ∨ s.x = 0x03#8) : s.stringStart arg = arg.getD (zext16 s.y) := by
  obtain ⟨hx2, rfl⟩ | ⟨hx3, ea, rfl⟩ := stringPrint_cases hwf hx
  · exact if_pos hx2
  · exact if_neg (by simp [hx3])

/-- The ticks of a string print of `n` bytes: its front end, its sub-pulses and its InterruptCheck (R137). -/
theorem stringTicks_eq {x : Byte} (hwf : (Instr.sys arg).wellFormed x = true) (hx : x = 0x02#8 ∨ x = 0x03#8) (n : Nat) :
    2 * n + (if x = 0x02#8 then 6 else 10) = 3 + 2 * (operandsOf (.sys arg)).length + (2 * n + 2) + 1 := by
  obtain ⟨rfl, rfl⟩ | ⟨rfl, ea, rfl⟩ := stringPrint_cases hwf hx
  · rw [if_pos rfl, operandsOf, List.length_nil]
    omega
  · rw [if_neg (by decide), operandsOf, List.length_cons, List.length_singleton]
    omega

end

/-- Settles O52: the front end, the print of the string, and the InterruptCheck, which changes nothing of the
architectural state. -/
theorem stringPrintEmitsItsString : Obligations.StringPrintEmitsItsString := by
  intro s arg rest bs _ h hdecode hprint hstring
  have hwf := (decode_three hdecode).1
  have hx : s.x = 0x02#8 ∨ s.x = 0x03#8 := by simpa [isStringPrint] using hprint
  obtain ⟨e, hfront, hlatched, hexec, hpulse⟩ := reaches_executing h hdecode
  have hxe : e.x = s.x := hlatched.x_eq
  have hye : e.y = s.y := (congrArg State.y hlatched.frame).trans rfl
  have hcells : e.cells = s.cells := (congrArg State.cells hlatched.frame).trans rfl
  have hout : e.out = s.out := (congrArg State.out hlatched.frame).trans rfl
  have hstart : e.stringNext arg = arg.getD (s.y.setWidth 16) := by
    rw [State.stringNext, if_pos hpulse, State.stringStart_of_wellFormed (hxe ▸ hwf) (hxe ▸ hx), hye]
    rfl
  obtain ⟨t, hreach, hactive, hp, harch⟩ := reaches_string (bs := bs) hexec (hxe ▸ hx) (by rw [hpulse])
    (by rw [hcells, hxe, hstart]; exact hstring)
  obtain ⟨v, hrun⟩ := hfront.trans hreach
  refine ⟨_, ?_, (State.interruptCheck_arch (s := t.afterTick v) rfl).trans (harch.trans ?_), by simp, by simp⟩
  · rw [stringTicks_eq hwf hx, run_add, hrun, andThen_next, run, step_interruptCheck (s := t.afterTick v) hactive hp]
    rfl
  · rw [hlatched.arch, hout]

end Sys2Proof.Machine
end

section
/-! PROOFS. Precise faults (60_exceptions.md R105, R110): a sub-pulse that logs a fault is the fault action, after at most
the output of a byte. -/

namespace Sys2Proof.Machine

section
variable {s t : State}

/-- Emitting no byte changes nothing (R30). -/
@[simp] theorem State.emit_nil (s : State) : s.emit [] = s := by
  simp [State.emit]

/-- An Execute sub-pulse that logs a fault is the fault action, which at the end of a string print comes after the byte
there (R99, R102, R105). -/
theorem ExecStep.eq_raise {i : Instr} (h : ExecStep s i t) (hlog : t.faults ≠ s.faults) :
    ∃ bs k info, t = (s.emit bs).raise k info := by
  cases h with
  | invalid => exact ⟨[], _, _, by rw [State.emit_nil]⟩
  | stringOverrun => exact ⟨_, _, _, rfl⟩
  | finish hsys hlast => exact absurd ((ExecStep.finish hsys hlast).output_eq hsys).2.2 hlog
  | read | store | printInt | stringFirst | stringRead | stringEnd | stringByte => exact absurd rfl hlog

/-- A sub-pulse that logs a fault is the fault action, after at most an output (R105). -/
theorem PhaseStep.eq_raise (h : PhaseStep s t) (hlog : t.faults ≠ s.faults) :
    ∃ bs k info, t = (s.emit bs).raise k info := by
  cases h with
  | undefinedOpcode => exact ⟨[], _, _, by rw [State.emit_nil]⟩
  | execute _ _ hstep => exact hstep.eq_raise hlog
  | interruptCheck => exact absurd s.service_faults hlog
  | fetchRead | fetchCapture | operandRead | operandCapture | idle | decode | writeback | noWriteback =>
    exact absurd rfl hlog

end

/-- Settles O36: the fault action keeps the registers and queues no write, so that the Memory phase keeps the cells. -/
theorem faultsArePrecise : Obligations.FaultsArePrecise := by
  intro s t hinv h hlog
  obtain ⟨-, rfl⟩ | ⟨-, -, rfl⟩ | ⟨⟨-, hloading⟩, u, hu, rfl⟩ := step_phases h
  · exact absurd rfl hlog
  · exact absurd (by simp) hlog
  · obtain ⟨bs, k, info, rfl⟩ := hu.eq_raise (by simpa using hlog)
    have hwrite : s.writePending = false := hinv.writePending.trans hloading
    simp [State.memoryTick_cells, hwrite]

end Sys2Proof.Machine
end

section
/-! PROOFS. The arbiter (60_exceptions.md R114): the record that is ahead stays the earliest of greatest priority among the
records seen so far. -/

namespace Sys2Proof.Machine

/-- `w` is the earliest record of greatest priority in `l` (R114). -/
def EarliestGreatest (w : Interrupt) (l : List Interrupt) : Prop :=
  ∃ before after, l = before ++ w :: after ∧
    (∀ r ∈ before, r.priority < w.priority) ∧ ∀ r ∈ after, r.priority ≤ w.priority

section
variable {best i : Interrupt} {seen : List Interrupt}

theorem earliestGreatest_singleton (w : Interrupt) : EarliestGreatest w [w] :=
  ⟨[], [], rfl, by simp, by simp⟩

/-- A record of greater priority gets ahead of every one before it. -/
theorem EarliestGreatest.append_greater (h : EarliestGreatest best seen) (hi : best.priority < i.priority) :
    EarliestGreatest i (seen ++ [i]) := by
  obtain ⟨before, after, rfl, hbefore, hafter⟩ := h
  refine ⟨before ++ best :: after, [], rfl, fun r hr => ?_, by simp⟩
  obtain hr | rfl | hr : r ∈ before ∨ r = best ∨ r ∈ after := by simpa using hr
  · exact (hbefore r hr).trans hi
  · exact hi
  · exact (hafter r hr).trans_lt hi

/-- Any other record stays behind, so ties go to the first arrival. -/
theorem EarliestGreatest.append_le (h : EarliestGreatest best seen) (hi : i.priority ≤ best.priority) :
    EarliestGreatest best (seen ++ [i]) := by
  obtain ⟨before, after, rfl, hbefore, hafter⟩ := h
  refine ⟨before, after ++ [i], by simp, hbefore, fun r hr => ?_⟩
  obtain hr | rfl : r ∈ after ∨ r = i := by simpa using hr
  · exact hafter r hr
  · exact hi

/-- What the arbiter keeps ahead is the earliest of greatest priority, whatever was seen before. -/
theorem earliestGreatest_bestOf (h : EarliestGreatest best seen) (l : List Interrupt) :
    EarliestGreatest (bestOf best l) (seen ++ l) := by
  induction l generalizing best seen with
  | nil => simpa [bestOf] using h
  | cons i rest ih =>
    rw [bestOf, List.append_cons]
    split
    next hi => exact ih (h.append_greater hi)
    next hi => exact ih (h.append_le (not_lt.1 hi))

end

theorem winner_eq_none_iff {l : List Interrupt} : winner l = none ↔ l = [] := by
  cases l <;> simp [winner]

theorem earliestGreatest_of_winner {l : List Interrupt} {w : Interrupt} (h : winner l = some w) :
    EarliestGreatest w l := by
  cases l with
  | nil => cases h
  | cons i rest =>
    cases h
    exact earliestGreatest_bestOf (earliestGreatest_singleton i) rest

/-- Settles O37, by induction on the records that wait. -/
theorem arbiterPicksEarliestOfGreatestPriority : Obligations.ArbiterPicksEarliestOfGreatestPriority :=
  fun _ => ⟨winner_eq_none_iff, fun _ => earliestGreatest_of_winner⟩

end Sys2Proof.Machine
end

section
/-! PROOFS. A pending quit key (60_exceptions.md R114, R116, R119): with no arrivals it stays in the slot as long as the
machine runs, since the InterruptCheck that clears the slot stops the machine. -/

namespace Sys2Proof.Machine

section
variable {s t : State} {q : Interrupt}

/-- A step starts no stopped machine (R134). -/
theorem step_running_of_next (h : step s = .next t) (hrunning : t.running = true) : s.running = true := by
  obtain ⟨-, rfl⟩ | ⟨hs, -⟩ := step_cases h
  · exact hrunning
  · exact hs

/-- A run starts no stopped machine (R134). -/
theorem run_running_of_next {n : Nat} (h : run n s = .next t) (hrunning : t.running = true) : s.running = true := by
  cases hs : s.running with
  | true => rfl
  | false =>
    rw [run_stopped hs] at h
    cases h
    exact hs.symm.trans hrunning

/-- The InterruptCheck tick stops the machine where a stop key is pending (R116). -/
theorem step_interruptCheck_stopKey (hinv : s.Inv) (hactive : s.active) (hp : s.phase = .interruptCheck)
    (hpending : s.pendingInterrupt = some q) (hkey : isStopKey q = true) :
    ∃ t, step s = .next t ∧ t.running = false ∧ t.stage = .fetch ∧ t.arch = s.arch := by
  obtain ⟨t, ht, harch, hstage, -, hstops, -⟩ := interruptCheckServesPending s hinv hactive hp
  exact ⟨t, ht, hstops.2 ⟨q, hpending, isStopKey_iff.1 hkey⟩, hstage, harch⟩

/-- A step that goes on keeps a pending stop key where nothing arrives (R114, decision D11). -/
theorem step_keeps_stopKey (hinv : s.Inv) (hpending : s.pendingInterrupt = some q) (hkey : isStopKey q = true)
    (harrivals : s.arrivals.headD [] = []) (h : step s = .next t) (hrunning : t.running = true) :
    t.pendingInterrupt = some q ∧ t.arrivals = s.arrivals.tail := by
  have hs : s.running = true := step_running_of_next h hrunning
  have hcheck : ¬(s.phase = .interruptCheck ∧ s.isLoading = false) := by
    rintro ⟨hp, hloading⟩
    obtain ⟨u, hu, hstopped, -⟩ := step_interruptCheck_stopKey hinv ⟨hs, hloading⟩ hp hpending hkey
    obtain rfl : t = u := Host.Outcome.next.inj (h.symm.trans hu)
    exact absurd (hstopped.symm.trans hrunning) (by simp)
  obtain ⟨-, htail, hslot⟩ := arrivalsBecomePending s t hinv hs h hrunning
  rw [harrivals, if_neg hcheck, hpending] at hslot
  exact ⟨hslot, htail⟩

/-- A run that goes on keeps a pending stop key where nothing arrives. -/
theorem run_keeps_stopKey {n : Nat} (hinv : s.Inv) (hpending : s.pendingInterrupt = some q)
    (hkey : isStopKey q = true) (harrivals : ∀ l ∈ s.arrivals.take n, l = []) (h : run n s = .next t)
    (hrunning : t.running = true) : t.pendingInterrupt = some q := by
  induction n generalizing s with
  | zero => cases h; exact hpending
  | succ n ih =>
    obtain ⟨u, hu, hrun⟩ := andThen_eq_next.1 h
    obtain ⟨hhead, htail⟩ : s.arrivals.headD [] = [] ∧ ∀ l ∈ s.arrivals.tail.take n, l = [] := by
      cases hl : s.arrivals with
      | nil => simp
      | cons l ls => simpa [hl] using harrivals
    obtain ⟨hpending', htail'⟩ :=
      step_keeps_stopKey hinv hpending hkey hhead hu (run_running_of_next hrun hrunning)
    exact ih (stepKeepsInvariant s u hinv hu) hpending' (htail' ▸ htail) hrun

end

/-- Settles O40: the instruction comes to its InterruptCheck with the key still pending, and is stopped there. -/
theorem pendingQuitStopsAfterInstruction : Obligations.PendingQuitStopsAfterInstruction := by
  intro s i rest q hinv h hdecode _ hbrk hsys hpending hdevice hdata harrivals
  have hends : endsInInterruptCheck i s.x := ⟨hbrk, hsys⟩
  have hkey : isStopKey q = true := isStopKey_iff.2 ⟨hdevice, hdata⟩
  obtain ⟨u, hrun, hactive, hp, -, harch⟩ := run_to_interruptCheck h hdecode hends
  have hpending' := run_keeps_stopKey hinv hpending hkey harrivals hrun hactive.1
  obtain ⟨t, ht, hstopped, hstage, hkept⟩ :=
    step_interruptCheck_stopKey (run_keeps stepKeepsInvariant hinv hrun) hactive hp hpending' hkey
  have hticks : ticksOf i s.x - 1 + 1 = ticksOf i s.x := by
    rw [ticksOf_eq (decode_three hdecode).1 hends, Nat.add_sub_cancel]
  refine ⟨t, ?_, hstopped, hstage, hkept.trans harch⟩
  rw [← hticks, run_add, hrun, andThen_next, run, ht]
  rfl

end Sys2Proof.Machine
end

section
/-! PROOFS. Every answer of Start (70_reset_and_hazards.md R127 to R131), one equation for each of its branches. -/

namespace Sys2Proof.Machine

section
variable {p rest : List Byte} {b : Byte} {useCarry debugLog : Bool} {s : State}

/-- The memory reset done, nothing is left of a stopped machine but the arrivals to come (R127, R131). -/
theorem State.startReset_mmuReset (h : s.running = false) :
    (s.startReset useCarry debugLog).mmuReset =
      { State.reset with useCarry := useCarry, debugLog := debugLog, arrivals := s.arrivals } := by
  cases s
  cases h
  rfl

/-- SetProgram empties memory and queues the first byte for address 0x0000 (R46, R47). -/
theorem State.setProgram_cons (s : State) (b : Byte) (rest : List Byte) :
    s.setProgram (b :: rest) =
      { s.mmuReset with
        mdr := b, writePending := true, programQueue := rest, loadAddress := 0x0001#16, isLoading := true } := rfl

/-- A Start while running is refused, whatever the program (R131, decision D29). -/
theorem start_running (h : s.running = true) : start p useCarry debugLog s = .refused .startWhileRunning :=
  if_pos h

/-- A program that does not fit the address space is refused (R130, decision D20). -/
theorem start_tooLong (h : s.running = false) (hlength : 65536 < p.length) :
    start p useCarry debugLog s = .refused .programTooLong := by
  simp [start, h, hlength]

/-- An empty program resets the machine and starts nothing (R129, decision D19). -/
theorem start_nil (h : s.running = false) :
    start [] useCarry debugLog s = .next (s.startReset useCarry debugLog).mmuReset := by
  simp [start, h, State.startReset]

/-- A program that fits is handed to the reset machine, which then runs (R127, R128, decision D18). -/
theorem start_cons (h : s.running = false) (hlength : (b :: rest).length ≤ 65536) :
    start (b :: rest) useCarry debugLog s =
      .next { (s.startReset useCarry debugLog).setProgram (b :: rest) with running := true } := by
  rw [start, if_neg (by simp [h]), if_neg hlength.not_gt]
  rfl

end

/-- Settles O42: the load of the program is set up on the reset state. -/
theorem startState : Obligations.StartState := by
  intro b rest useCarry debugLog s h hlength
  rw [start_cons h hlength, State.setProgram_cons, State.startReset_mmuReset h]

/-- Settles O43, a branch of Start for each clause. -/
theorem startRefusalsAndEmptyProgram : Obligations.StartRefusalsAndEmptyProgram := by
  intro p useCarry debugLog s
  refine ⟨start_running, start_tooLong, fun h => ?_⟩
  rw [start_nil h, State.startReset_mmuReset h]

end Sys2Proof.Machine
end

section
/-! PROOFS. The state after reset (10_state.md section 8): every register at its reset value, and a memory that lists no
cell. -/

namespace Sys2Proof.Machine

/-- Where nothing is listed every address reads as an unlisted cell does (R26). -/
theorem Memory.read_nil (addr : Nat) : Memory.read [] addr = Memory.unlisted := rfl

/-- Before any program is loaded every cell holds 0x00 (R26). -/
theorem State.reset_cell (a : Word) : State.reset.cell a = 0x00#8 := Memory.read_nil a.toNat

/-- Settles O41: each register holds the value that the definition of reset gives it, and each cell is read from the empty
list. -/
theorem resetState : Obligations.ResetState := by
  refine ⟨?a, ?x, ?y, ?z, ?c, ?pc, ?opcode, ?ir, ?irCode, ?operand0, ?operand1, ?stage, ?pulse, ?fetchCount,
    ?currentFetch, ?writeAddress, ?writeValue, ?strPtr, ?pendingInterrupt, ?running, ?mar, ?mdr, ?readPending,
    ?writePending, ?programQueue, ?loadAddress, ?isLoading, ?waiting, ?out, ?faults, State.reset_cell⟩
  all_goals rfl

end Sys2Proof.Machine
end
